-- ==== Sys2Proof/Word.lean ====
section
/-! DEFINITION. The word types of the TSA block: registers and entries are 32-bit words (00_scope.md R6, "operand
width"), seed and digest bytes are 8 bits, a two-register result is 64 bits (20_memory.md R70). -/

namespace Sys2Proof

/-- A 32-bit register, cache entry, operand or draw. -/
abbrev Word := BitVec 32

/-- One byte of a seed or of a digest. -/
abbrev Byte := BitVec 8

/-- A 64-bit result, delivered in two RES registers (20_memory.md R70). -/
abbrev DWord := BitVec 64

end Sys2Proof
end

