-- ==== Sys2Proof/Syntax.lean ====
section
/-! DEFINITION. The commands of the TSA block: one constructor per row of spec/opcode_table.json (30_encoding.md R83).
A command word carries no operand (R82), so no constructor has an argument. -/

namespace Sys2Proof

/-- The fourteen commands, grouped by family in the order of 30_encoding.md R83. -/
inductive Instr where
  /-- CACHE_RESET, 0x10 (R110). -/
  | cacheReset
  /-- GROW_TO, 0x11 (R111). -/
  | growTo
  /-- IS_PRIME, 0x12 (R112). -/
  | isPrime
  /-- CLASSIFY, 0x13 (R113). -/
  | classify
  /-- PRIME_AT, 0x14 (R114). -/
  | primeAt
  /-- FACTORIZE, 0x20 (R135). -/
  | factorize
  /-- PHI, 0x21 (R136). -/
  | phi
  /-- SIGMA, 0x22 (R137). -/
  | sigma
  /-- ALIQUOT, 0x23 (R138). -/
  | aliquot
  /-- SEED, 0x30 (R160). -/
  | seed
  /-- RNG_LOAD, 0x31 (R161). -/
  | rngLoad
  /-- NEXT32, 0x32 (R162). -/
  | next32
  /-- NEXT_FLOAT, 0x33 (R163). -/
  | nextFloat
  /-- NEXT_BOUNDED, 0x34 (R164). -/
  | nextBounded
  deriving DecidableEq, Repr

namespace Instr

/-- Every command once, in the order of the opcode map (30_encoding.md R83). -/
def all : List Instr :=
  [.cacheReset, .growTo, .isPrime, .classify, .primeAt, .factorize, .phi, .sigma, .aliquot,
   .seed, .rngLoad, .next32, .nextFloat, .nextBounded]

/-- The mnemonic of a command, as 30_encoding.md R83 spells it. -/
def mnemonic : Instr → String
  | .cacheReset => "CACHE_RESET"
  | .growTo => "GROW_TO"
  | .isPrime => "IS_PRIME"
  | .classify => "CLASSIFY"
  | .primeAt => "PRIME_AT"
  | .factorize => "FACTORIZE"
  | .phi => "PHI"
  | .sigma => "SIGMA"
  | .aliquot => "ALIQUOT"
  | .seed => "SEED"
  | .rngLoad => "RNG_LOAD"
  | .next32 => "NEXT32"
  | .nextFloat => "NEXT_FLOAT"
  | .nextBounded => "NEXT_BOUNDED"

end Instr

end Sys2Proof
end

