-- ==== Sys2Proof/Decode.lean ====
section
/-! DEFINITION. The command decoder, total on every 32-bit word and rejecting by name (30_encoding.md R80 to R86), the
encoder written from the same opcode map (R83), and the host's entry point `decodeTableWord`. The block is a word
device: a command is the one 32-bit word of the CMD write (R81), so the decoder reads a word. -/

namespace Sys2Proof

/-- Why a word is no command (30_encoding.md R85). Both reasons raise IllegalCommand. -/
inductive DecodeReject where
  /-- RSV, bits 31:8, is not 0. -/
  | reservedBitsSet
  /-- OPCODE, bits 7:0, is none of the fourteen values. -/
  | opcodeUnassigned
  deriving DecidableEq, Repr

/-- The OPCODE field, bits 7:0 (30_encoding.md R80). -/
def opcodeField (w : Word) : BitVec 8 := w.extractLsb' 0 8

/-- The RSV field, bits 31:8 (30_encoding.md R80). -/
def reservedField (w : Word) : BitVec 24 := w.extractLsb' 8 24

/-- The opcode map of 30_encoding.md R83, read as R86's case list. -/
def decodeOpcode (op : BitVec 8) : Option Instr :=
  if op = 0x10 then some .cacheReset
  else if op = 0x11 then some .growTo
  else if op = 0x12 then some .isPrime
  else if op = 0x13 then some .classify
  else if op = 0x14 then some .primeAt
  else if op = 0x20 then some .factorize
  else if op = 0x21 then some .phi
  else if op = 0x22 then some .sigma
  else if op = 0x23 then some .aliquot
  else if op = 0x30 then some .seed
  else if op = 0x31 then some .rngLoad
  else if op = 0x32 then some .next32
  else if op = 0x33 then some .nextFloat
  else if op = 0x34 then some .nextBounded
  else none

/-- The decode function of 30_encoding.md R86. -/
def decode (w : Word) : Except DecodeReject Instr :=
  if reservedField w ≠ 0 then .error .reservedBitsSet
  else match decodeOpcode (opcodeField w) with
    | some i => .ok i
    | none => .error .opcodeUnassigned

/-- The OPCODE of each command (30_encoding.md R83). -/
def opcode : Instr → BitVec 8
  | .cacheReset => 0x10
  | .growTo => 0x11
  | .isPrime => 0x12
  | .classify => 0x13
  | .primeAt => 0x14
  | .factorize => 0x20
  | .phi => 0x21
  | .sigma => 0x22
  | .aliquot => 0x23
  | .seed => 0x30
  | .rngLoad => 0x31
  | .next32 => 0x32
  | .nextFloat => 0x33
  | .nextBounded => 0x34

/-- The command word of a command: RSV = 0 above its OPCODE (30_encoding.md R80). -/
def encode (i : Instr) : Word := 0#24 ++ opcode i

/-- The command that the decoder reads from an instruction of `nbits` bits whose bits are `w`; a word that does not fit
the block's one 32-bit format is none (30_encoding.md R81). -/
def decodeTableWord (nbits w : Nat) : Option Instr :=
  if nbits ≤ 32 ∧ w < 2 ^ nbits then (decode (BitVec.ofNat 32 w)).toOption else none

end Sys2Proof
end

