-- ==== Sys2Proof/Config.lean ====
section
/-! DEFINITION. What one instance of the block fixes (00_scope.md R6, R7) and the one free value of the model, the
latency of a command (70_reset_and_hazards.md R245). An OPEN parameter is an `opaque` constant: no proof can see its
value, so what is proved holds for every value the spec allows. -/

namespace Sys2Proof.Config

/-- How far PRIME_CAPACITY lies above its least legal value; OPEN (00_scope.md R6, 93_implementation_defined.md P1). It
is at most 4294960753 = 2^32 - 1 - 6542. Log entry 4. -/
opaque capacityAboveLeast : Fin 4294960754

/-- PRIME_CAPACITY, the number of prime entries the cache memory holds: any integer from 6542 to 2^32 - 1
(00_scope.md R6). -/
def primeCapacity : Nat := capacityAboveLeast.val + 6542

/-- Which 512-byte page the platform places the register window in; OPEN (00_scope.md R6, 20_memory.md R60).
Log entry 5. -/
opaque blockPage : Nat

/-- BLOCK_BASE, the bus byte address of register offset 0: a multiple of 512 (20_memory.md R60). -/
def blockBase : Nat := 512 * blockPage

/-- The free latency of the n-th accepted command: how many host operations take effect between its acceptance and its
commit, if the host has that many. Finite and not bounded (30_encoding.md R94, 70_reset_and_hazards.md R245, P7).
Log entry 1. -/
opaque latency : Nat → Nat

/-- NMAX_RESET, the reset value of the register NMAX: a parameter of the instance, any 32-bit value (00_scope.md R6, R7,
10_state.md R35, R47, 93_implementation_defined.md P3). Log entry 6. -/
opaque nmaxReset : Word

/-- The default of NMAX_RESET, 1,000,000,000 (00_scope.md R6). Nothing the machine runs uses it. -/
def nmaxResetDefault : Word := 0x3B9ACA00

/-- The ID register's constant, ASCII "TSA1" (00_scope.md R1, 10_state.md R30). -/
def idConstant : Word := 0x54534131

/-- SEED_CAP, the seed buffer's size in bytes (00_scope.md R6). -/
def seedCap : Nat := 256

/-- The size of the register window in bytes (20_memory.md R60). -/
def windowBytes : Nat := 512

end Sys2Proof.Config
end

