-- ==== Sys2Proof/Machine/State.lean ====
section
/-! DEFINITION. The state of the TSA block (10_state.md) and its reset value (70_reset_and_hazards.md R230), the host's
pending operations, and the reasons a step can stop. State is plain data. A register that only shows other state (ID,
HW, PCOUNT, PCAP, RNG_A to RNG_D, STATUS.BUSY, STATUS.SEEDED) has no field of its own: log entry 8. -/

namespace Sys2Proof.Machine

/-- The sequencer's phase (10_state.md R27). -/
inductive Phase where
  /-- No command is in execution. -/
  | idle
  /-- A command is accepted and has not committed. -/
  | busy
  deriving DecidableEq, Repr

/-- The error kinds a command can end in (60_exceptions.md R200). -/
inductive ErrKind where
  /-- ERRCODE 1: a command's input check fails. -/
  | invalidInput
  /-- ERRCODE 2: the command word is illegal. -/
  | illegalCommand
  /-- ERRCODE 3: a draw with SEEDED = 0. -/
  | notSeeded
  /-- ERRCODE 4: GrowTo finds a prime and the cache memory is full. -/
  | cacheFull
  deriving DecidableEq, Repr

/-- The prime engine's state: the entries in ascending order and the high-water mark (10_state.md R20, R21). -/
structure Cache where
  primes : List Word
  hw : Word
  deriving DecidableEq, Repr

/-- The PRNG engine's four state words A, B, C, D (10_state.md R24). -/
structure Rng where
  a : Word
  b : Word
  c : Word
  d : Word
  deriving DecidableEq, Repr

/-- One operation of the host or of the platform, not yet performed. -/
inductive HostOp where
  /-- A bus read of `width` bytes at byte address `addr` (20_memory.md R62); any width and address may be asked for. -/
  | read (addr width : Nat)
  /-- A bus write of `width` bytes at byte address `addr` (20_memory.md R63). -/
  | write (addr width : Nat) (value : Word)
  /-- Read STATUS until its bit 0 reads 0 (30_encoding.md R87, `poll`). -/
  | poll
  /-- Assert the reset input (70_reset_and_hazards.md R231). -/
  | reset
  deriving DecidableEq, Repr

/-- Everything the spec gives the block, then the model's own fields for the host (the last four). -/
structure State where
  /-- The prime cache (10_state.md R20 to R22); pcount is the length of its list. -/
  cache : Cache
  /-- A, B, C, D (R24). -/
  rng : Rng
  /-- SEEDED (R25). -/
  seeded : Bool
  /-- The sequencer's phase (R27); STATUS.BUSY shows it. -/
  phase : Phase
  /-- LASTCMD, the last accepted command word (R31). -/
  lastCmd : Word
  /-- STATUS.DONE (R32). -/
  done : Bool
  /-- STATUS.ERR (R32). -/
  err : Bool
  /-- STATUS.ERRCODE (R32), none for 0. -/
  errCode : Option ErrKind
  /-- STATUS.OVR (R32). -/
  ovr : Bool
  /-- ERRINFO (R33). -/
  errInfo : Word
  /-- ARG0 to ARG3 (R34). -/
  args : Vector Word 4
  /-- NMAX (R35). -/
  nmax : Word
  /-- SEED_LEN (R40). -/
  seedLen : Word
  /-- RES0 to RES31 (R41). -/
  res : Vector Word 32
  /-- SEED_BUF0 to SEED_BUF63 (R42). -/
  seedBuf : Vector Word 64
  /-- The model's own: the host's operations still to come, oldest first. Log entry 2. -/
  host : List HostOp
  /-- The model's own: the values the host's reads have returned, newest first. Log entry 2. -/
  reads : List Word
  /-- The model's own: how many host operations still take effect before the running command commits. Log entry 1. -/
  hold : Nat
  /-- The model's own: how many commands have been accepted, the counter of the free latency. Log entry 1. -/
  accepted : Nat
  deriving DecidableEq, Repr

/-- Why the machine stops. -/
inductive Fault where
  /-- BusFault(addr): a host access that is not 4 bytes wide, not at a multiple of 4, or outside the register window
  (20_memory.md R61). Raised by the bus on a host read or write. The block's state is untouched. SAFE: the hardware's
  platform reports a bus error where the model stops. -/
  | busFault (addr : Nat)
  deriving DecidableEq, Repr

/-- Why an instruction has no meaning in the model. -/
inductive Refusal where
  /-- The instruction is not modelled; raised by no arm of this model. SAFE. -/
  | notModelled (mnemonic : String)
  deriving DecidableEq, Repr

/-- The initial prime cache, primes = [2] and hw = 2 (40_prime_cache.md R110, 70_reset_and_hazards.md R230). -/
def Cache.initial : Cache := { primes := [2], hw := 2 }

/-- The PRNG words at reset, 0 each (70_reset_and_hazards.md R230). -/
def Rng.zero : Rng := { a := 0, b := 0, c := 0, d := 0 }

/-- The machine right after reset (70_reset_and_hazards.md R230). The last four fields are the model's own, log
entry 19 (DESIGN CHOICE). -/
def State.reset : State where
  cache := Cache.initial
  rng := Rng.zero
  seeded := false
  phase := .idle
  lastCmd := 0
  done := false
  err := false
  errCode := none
  ovr := false
  errInfo := 0
  args := Vector.replicate 4 0
  nmax := Config.nmaxReset
  seedLen := 0
  res := Vector.replicate 32 0
  seedBuf := Vector.replicate 64 0
  host := []
  reads := []
  hold := 0
  accepted := 0

end Sys2Proof.Machine
end

