-- ==== Sys2Proof/Machine/Flags.lean ====
section
/-! DEFINITION. The STATUS register (10_state.md R32): the word a read gives, and the write-1-to-clear of OVR. STATUS
is the block's only flag state (R45). -/

namespace Sys2Proof.Machine

/-- The ERRCODE of an error kind (60_exceptions.md R200). -/
def ErrKind.code : ErrKind → BitVec 4
  | .invalidInput => 1
  | .illegalCommand => 2
  | .notSeeded => 3
  | .cacheFull => 4

/-- The ERRCODE field: 0 when there is no error (60_exceptions.md R200). -/
def errCodeField : Option ErrKind → BitVec 4
  | none => 0
  | some e => e.code

/-- BUSY, bit 0 (10_state.md R32). -/
def State.isBusy (s : State) : Bool := s.phase == .busy

/-- The STATUS word: bits 31:10 read 0, then SEEDED, OVR, ERRCODE, the reserved bit 3, ERR, DONE, BUSY
(10_state.md R32). -/
def State.statusWord (s : State) : Word :=
  0#22 ++ BitVec.ofBool s.seeded ++ BitVec.ofBool s.ovr ++ errCodeField s.errCode ++ 0#1 ++ BitVec.ofBool s.err ++
    BitVec.ofBool s.done ++ BitVec.ofBool s.isBusy

/-- A write of `v` to STATUS clears OVR when bit 8 of `v` is 1; every other bit is ignored (10_state.md R32,
20_memory.md R63(d)). -/
def State.writeStatus (v : Word) (s : State) : State :=
  { s with ovr := s.ovr && !v.getLsbD 8 }

end Sys2Proof.Machine
end

