-- ==== Sys2Proof/Machine/Operands.lean ====
section
/-! DEFINITION. Reading a command's operands and packing its results, and the numeric primitives of 00_scope.md R8
and R9. Every operand form the spec has is here: an ARG register (30_encoding.md R82) and the seed bytes (20_memory.md
R69). -/

namespace Sys2Proof.Machine

/-! ## Numeric primitives -/

/-- One bit of the search for the greatest `s` with `s * s < k`: bits `b - 1` down to 0 are decided, `s` holds the
bits above. -/
def rootBelow (k : Nat) : Nat → Nat → Nat
  | 0, s => s
  | b + 1, s => rootBelow k b (if (s + 2 ^ b) * (s + 2 ^ b) < k then s + 2 ^ b else s)

/-- `ceil_sqrt(k)`, the least `s` with `s * s ≥ k` (00_scope.md R8): one more than the greatest `s` with
`s * s < k`. -/
def ceilSqrt (k : Nat) : Nat :=
  if k = 0 then 0 else rootBelow k (Nat.log2 k + 1) 0 + 1

/-- `rotl32(x, k)` for `0 < k < 32` (00_scope.md R9). -/
def rotl32 (x : Word) (k : Nat) : Word := (x <<< k) ||| (x >>> (32 - k))

/-! ## Operands -/

/-- Operand `ARG[i]`, a 32-bit unsigned integer read as it stands (30_encoding.md R82). -/
def State.arg (s : State) (i : Fin 4) : Word := s.args[i]

/-- pcount, the number of entries of the prime cache (10_state.md R22). -/
def Cache.count (c : Cache) : Nat := c.primes.length

/-- Seed byte `j` of the seed buffer: bits `8*(j mod 4)+7 : 8*(j mod 4)` of SEED_BUF[j div 4] (20_memory.md R69). -/
def seedByte (buf : Vector Word 64) (j : Nat) : Byte :=
  ((buf[j / 4]?).getD 0).extractLsb' (8 * (j % 4)) 8

/-- The seed bytes `s_0 .. s_{L-1}` that SEED hashes, `L` = SEED_LEN (42_prng.md R160). -/
def State.seedBytes (s : State) : List Byte :=
  (List.range s.seedLen.toNat).map (seedByte s.seedBuf)

/-! ## Results -/

/-- The 32 RES registers after a successful commit: RES[i] is `result[i]`, and 0 past its end (30_encoding.md R93). -/
def resultRegs (result : List Word) : Vector Word 32 :=
  Vector.ofFn fun i : Fin 32 => result.getD i.val 0

/-- A 64-bit integer result in two RES registers, the less significant word first (20_memory.md R70). -/
def twoWords (v : Nat) : List Word :=
  [BitVec.ofNat 32 v, BitVec.ofNat 32 (v / 2 ^ 32)]

end Sys2Proof.Machine
end

