-- ==== Sys2Proof/Machine/Ops.lean ====
section
/-! DEFINITION. The shared operations of the sequencer: accepting a command (30_encoding.md R90), the successful commit
(R93), the error commit (60_exceptions.md R201, the block's form of taking an exception), the illegal word, the input
checks of R202, and the reset event (70_reset_and_hazards.md R231). There is no return-from-error (60_exceptions.md
R206): the next acceptance clears ERR and ERRCODE. -/

namespace Sys2Proof.Machine

/-- Acceptance of command word `w` (30_encoding.md R90). `delay` is the model's own: how many host operations still
take effect before the commit (log entry 1). -/
def acceptCommand (delay : Nat) (w : Word) (s : State) : State :=
  { s with
    lastCmd := w
    phase := .busy
    done := false
    err := false
    errCode := none
    hold := delay
    accepted := s.accepted + 1 }

/-- The successful commit with result vector `result` (30_encoding.md R93). ERRINFO is unchanged. -/
def commit (result : List Word) (s : State) : State :=
  { s with
    res := resultRegs result
    phase := .idle
    done := true
    err := false
    errCode := none
    hold := 0 }

/-- `raise E(info)`: the error commit (60_exceptions.md R201). It saves no program counter, changes no mode and
transfers control nowhere (R205). -/
def raiseError (e : ErrKind) (info : Word) (s : State) : State :=
  { s with
    res := Vector.replicate 32 0
    errInfo := info
    phase := .idle
    done := true
    err := true
    errCode := some e
    hold := 0 }

/-- An illegal command word raises IllegalCommand(word) before any other check (30_encoding.md R85, R91). -/
def execIllegal (w : Word) (s : State) : State := raiseError .illegalCommand w s

/-- The check `n > NMAX : InvalidInput(n)` before `body` (60_exceptions.md R202, GROW_TO and IS_PRIME). -/
def checkAtMostNmax (n : Word) (body : State → State) (s : State) : State :=
  if s.nmax < n then raiseError .invalidInput n s else body s

/-- The check `n = 0 or n > NMAX : InvalidInput(n)` before `body` (60_exceptions.md R202, the factorizer commands and
NEXT_BOUNDED). -/
def checkPositiveAtMostNmax (n : Word) (body : State → State) (s : State) : State :=
  if n = 0 ∨ s.nmax < n then raiseError .invalidInput n s else body s

/-- The check `SEEDED = 0 : NotSeeded(0)` before `body` (60_exceptions.md R202). -/
def checkSeeded (body : State → State) (s : State) : State :=
  if s.seeded then body s else raiseError .notSeeded 0 s

/-- The reset event (70_reset_and_hazards.md R231): every state element takes its reset value, and a command in
execution is abandoned. The host's own fields and the latency counter are not the block's and stay (log entry 13). -/
def resetEvent (s : State) : State :=
  { State.reset with
    host := s.host
    reads := s.reads
    accepted := s.accepted }

end Sys2Proof.Machine
end

