-- ==== Sys2Proof/Machine/Window.lean ====
section
/-! DEFINITION. The register window's map (10_state.md R28): the register names, the offset of each, and the register
at an offset. -/

namespace Sys2Proof.Machine

/-- The registers of the window, by the names of 10_state.md R28; `reserved i` is the i-th word of the reserved offsets
0x044 to 0x07C (R43). -/
inductive Reg where
  | id
  | cmd
  | status
  | errInfo
  | arg (i : Fin 4)
  | nmax
  | hw
  | pcount
  | pcap
  | rngA
  | rngB
  | rngC
  | rngD
  | seedLen
  | reserved (i : Fin 15)
  | res (i : Fin 32)
  | seedBuf (j : Fin 64)
  deriving DecidableEq, Repr

/-- How a register may be accessed (10_state.md R28). -/
inductive Access where
  /-- RO, or a reserved offset: writes are ignored. -/
  | readOnly
  /-- RW: a write stores all 32 bits. -/
  | readWrite
  /-- CMD: a write is a command, a read gives LASTCMD. -/
  | command
  /-- STATUS: RO but for the write-1-to-clear of bit 8. -/
  | status
  deriving DecidableEq, Repr

/-- The byte offset of a register from BLOCK_BASE (10_state.md R28). -/
def Reg.offset : Reg → Nat
  | .id => 0x000
  | .cmd => 0x004
  | .status => 0x008
  | .errInfo => 0x00C
  | .arg i => 0x010 + 4 * i.val
  | .nmax => 0x020
  | .hw => 0x024
  | .pcount => 0x028
  | .pcap => 0x02C
  | .rngA => 0x030
  | .rngB => 0x034
  | .rngC => 0x038
  | .rngD => 0x03C
  | .seedLen => 0x040
  | .reserved i => 0x044 + 4 * i.val
  | .res i => 0x080 + 4 * i.val
  | .seedBuf j => 0x100 + 4 * j.val

/-- The access type of a register (10_state.md R28). -/
def Reg.access : Reg → Access
  | .cmd => .command
  | .status => .status
  | .arg _ | .nmax | .seedLen | .seedBuf _ => .readWrite
  | .id | .errInfo | .hw | .pcount | .pcap | .rngA | .rngB | .rngC | .rngD | .reserved _ | .res _ => .readOnly

/-- Registers 0 to 31 of the window by word index: all but RES and SEED_BUF (10_state.md R28). -/
def Reg.lowAt (n : Nat) : Option Reg :=
  match n with
  | 0 => some .id
  | 1 => some .cmd
  | 2 => some .status
  | 3 => some .errInfo
  | 4 => some (.arg 0)
  | 5 => some (.arg 1)
  | 6 => some (.arg 2)
  | 7 => some (.arg 3)
  | 8 => some .nmax
  | 9 => some .hw
  | 10 => some .pcount
  | 11 => some .pcap
  | 12 => some .rngA
  | 13 => some .rngB
  | 14 => some .rngC
  | 15 => some .rngD
  | 16 => some .seedLen
  | n + 17 => if h : n < 15 then some (.reserved ⟨n, h⟩) else none

/-- The register at a byte offset: one for every multiple of 4 below 512, none elsewhere (10_state.md R28, 20_memory.md
R60, R61). -/
def Reg.ofOffset (off : Nat) : Option Reg :=
  if off % 4 ≠ 0 then none
  else if off < 0x080 then Reg.lowAt (off / 4)
  else if h : off / 4 - 32 < 32 then some (.res ⟨off / 4 - 32, h⟩)
  else if h : off / 4 - 64 < 64 then some (.seedBuf ⟨off / 4 - 64, h⟩)
  else none

end Sys2Proof.Machine
end

