-- ==== Sys2Proof/Machine/Bus.lean ====
section
/-! DEFINITION. The host's side of the block: register reads and writes (20_memory.md R60 to R66), the poll, and which
agent moves next. -/

namespace Sys2Proof.Machine

/-! ## Registers -/

/-- The value a read of a register gives (10_state.md R30 to R43, 20_memory.md R62). A command is one step of the
sequencer, so while BUSY every register but STATUS still has its value from acceptance (R64). -/
def State.readReg (s : State) : Reg → Word
  | .id => Config.idConstant
  | .cmd => s.lastCmd
  | .status => s.statusWord
  | .errInfo => s.errInfo
  | .arg i => s.args[i]
  | .nmax => s.nmax
  | .hw => s.cache.hw
  | .pcount => BitVec.ofNat 32 s.cache.count
  | .pcap => BitVec.ofNat 32 Config.primeCapacity
  | .rngA => s.rng.a
  | .rngB => s.rng.b
  | .rngC => s.rng.c
  | .rngD => s.rng.d
  | .seedLen => s.seedLen
  | .reserved _ => 0
  | .res i => s.res[i]
  | .seedBuf j => s.seedBuf[j]

/-- A write to an RW register or to CMD while BUSY is dropped and sets STATUS.OVR (20_memory.md R63(c),
70_reset_and_hazards.md R240). -/
def unlessBusy (body : State → State) (s : State) : State :=
  match s.phase with
  | .idle => body s
  | .busy => { s with ovr := true }

/-- The effect of a write of `v` to a register (20_memory.md R63). `delay` is the free latency a command gets that this
write has accepted. -/
def State.writeReg (delay : Nat) (v : Word) (s : State) : Reg → State
  | .cmd => unlessBusy (acceptCommand delay v) s
  | .status => s.writeStatus v
  | .arg i => unlessBusy (fun s => { s with args := s.args.set i v }) s
  | .nmax => unlessBusy (fun s => { s with nmax := v }) s
  | .seedLen => unlessBusy (fun s => { s with seedLen := v }) s
  | .seedBuf j => unlessBusy (fun s => { s with seedBuf := s.seedBuf.set j v }) s
  | .id | .errInfo | .hw | .pcount | .pcap | .rngA | .rngB | .rngC | .rngD | .reserved _ | .res _ => s

/-! ## Bus -/

/-- The register that a bus access reaches: a 4-byte access at a multiple of 4 inside the window, and no other
(20_memory.md R60, R61). -/
def busTarget (addr width : Nat) : Option Reg :=
  if width = 4 ∧ Config.blockBase ≤ addr then Reg.ofOffset (addr - Config.blockBase) else none

/-- The host has performed its oldest operation; while a command is BUSY that also brings the commit one operation
nearer (log entry 1). -/
def State.hostDone (s : State) : State := { s with host := s.host.tail, hold := s.hold - 1 }

/-- The host has read `v`. -/
def State.logRead (v : Word) (s : State) : State := { s with reads := v :: s.reads }

/-- One operation of the host or of the platform (20_memory.md R62, R63, R61; 30_encoding.md R87;
70_reset_and_hazards.md R231). A poll that reads BUSY = 1 stays, to be repeated. -/
def performHostOp (op : HostOp) (s : State) : Host.Outcome State Fault Refusal :=
  match op with
  | .read addr width =>
    match busTarget addr width with
    | some r => .next ((s.logRead (s.readReg r)).hostDone)
    | none => .fault (.busFault addr)
  | .write addr width v =>
    match busTarget addr width with
    | some r => .next (s.hostDone.writeReg (Config.latency s.accepted) v r)
    | none => .fault (.busFault addr)
  | .poll =>
    if s.isBusy then .next { s.logRead s.statusWord with hold := s.hold - 1 }
    else .next ((s.logRead s.statusWord).hostDone)
  | .reset => .next (resetEvent { s with host := s.host.tail })

/-- The host's step: its oldest operation, or nothing when it has none (60_exceptions.md R214). -/
def hostStep (s : State) : Host.Outcome State Fault Refusal :=
  match s.host with
  | [] => .next s
  | op :: _ => performHostOp op s

/-! ## Who moves -/

/-- The sequencer commits now: a command is BUSY and either its latency has passed or the host does nothing that could
fall before the commit (70_reset_and_hazards.md R245, log entry 1). -/
def State.sequencerMoves (s : State) : Bool :=
  s.isBusy && (s.hold == 0 || s.host.isEmpty)

end Sys2Proof.Machine
end

