-- ==== Sys2Proof/Machine/PrimeCache.lean ====
section
/-! DEFINITION. The prime cache family: the subroutines of 40_prime_cache.md R100 to R102 and the commands R110 to
R114. A subroutine that can grow the cache answers a `Grown`: it finished, or it stopped at a prime with the cache
memory full. -/

namespace Sys2Proof.Machine

/-- The outcome of a computation that may grow the cache. -/
inductive Grown (α : Type) where
  /-- It finished with answer `a`; `c` is the cache after it. -/
  | done (a : α) (c : Cache)
  /-- CacheFull(k): prime `k` could not be appended; `c` is the cache with the growth kept (R101). -/
  | full (k : Word) (c : Cache)
  deriving DecidableEq, Repr

/-! ## Subroutines -/

/-- The ascending scan that R100 and R102 share: stop at the first entry that divides `n` (not prime) or exceeds
`bound` (prime); an exhausted cache means prime. -/
def scanFindsNoDivisor (n bound : Nat) : List Word → Bool
  | [] => true
  | p :: ps =>
    if n % p.toNat = 0 then false
    else if bound < p.toNat then true
    else scanFindsNoDivisor n bound ps

/-- ClassifyCandidate(k) against the cached entries (40_prime_cache.md R100). -/
def classifyCandidate (k : Nat) (primes : List Word) : Bool :=
  scanFindsNoDivisor k (ceilSqrt k) primes

/-- The loop of GrowTo over `steps` candidates from `k` on (40_prime_cache.md R101). -/
def growLoop (capacity : Nat) : Nat → Nat → List Word → Grown Unit
  | 0, k, primes => .done () { primes := primes, hw := BitVec.ofNat 32 (k - 1) }
  | steps + 1, k, primes =>
    if classifyCandidate k primes then
      if primes.length = capacity then
        .full (BitVec.ofNat 32 k) { primes := primes, hw := BitVec.ofNat 32 (k - 1) }
      else growLoop capacity steps (k + 1) (primes ++ [BitVec.ofNat 32 k])
    else growLoop capacity steps (k + 1) primes

/-- GrowTo(n) (40_prime_cache.md R101): nothing if `hw ≥ n`, else the candidates `hw + 1 .. n` in order. -/
def growTo (capacity n : Nat) (c : Cache) : Grown Unit :=
  if n ≤ c.hw.toNat then .done () c
  else growLoop capacity (n - c.hw.toNat) (c.hw.toNat + 1) c.primes

/-- IsPrimeCore(n) (40_prime_cache.md R102). -/
def isPrimeCore (capacity : Nat) (n : Word) (c : Cache) : Grown Bool :=
  if n ∈ c.primes then .done true c
  else if n ≤ c.hw then .done false c
  else match growTo capacity (ceilSqrt n.toNat) c with
    | .full k c' => .full k c'
    | .done _ c' => .done (scanFindsNoDivisor n.toNat (ceilSqrt n.toNat) c'.primes) c'

/-- The end of a command whose computation may grow the cache: the commit of its result, or CacheFull with the growth
made so far kept (40_prime_cache.md R101, 60_exceptions.md R201). -/
def finishGrown {α : Type} (result : α → List Word) (g : Grown α) (s : State) : State :=
  match g with
  | .done a c => commit (result a) { s with cache := c }
  | .full k c => raiseError .cacheFull k { s with cache := c }

/-! ## Commands -/

/-- CACHE_RESET (40_prime_cache.md R110). -/
def execCacheReset (s : State) : Host.Outcome State Fault Refusal :=
  .next (commit [] { s with cache := Cache.initial })

/-- GROW_TO n in a block of the given capacity (40_prime_cache.md R111). -/
def growToCommand (capacity : Nat) (s : State) : State :=
  let n := s.arg 0
  checkAtMostNmax n
    (fun s => finishGrown (fun _ => []) (growTo capacity n.toNat s.cache) s) s

/-- GROW_TO n (40_prime_cache.md R111). -/
def execGrowTo (s : State) : Host.Outcome State Fault Refusal :=
  .next (growToCommand Config.primeCapacity s)

/-- IS_PRIME n in a block of the given capacity (40_prime_cache.md R112). -/
def isPrimeCommand (capacity : Nat) (s : State) : State :=
  let n := s.arg 0
  checkAtMostNmax n
    (fun s => finishGrown (fun prime => [if prime then 1 else 0]) (isPrimeCore capacity n s.cache) s) s

/-- IS_PRIME n (40_prime_cache.md R112). -/
def execIsPrime (s : State) : Host.Outcome State Fault Refusal :=
  .next (isPrimeCommand Config.primeCapacity s)

/-- The class CLASSIFY gives: 0 unclassified, 1 prime, 2 classified and not prime (40_prime_cache.md R113). -/
def classOf (k : Word) (c : Cache) : Word :=
  if c.hw < k then 0 else if k ∈ c.primes then 1 else 2

/-- CLASSIFY k (40_prime_cache.md R113). -/
def execClassify (s : State) : Host.Outcome State Fault Refusal :=
  .next (commit [classOf (s.arg 0) s.cache] s)

/-- PRIME_AT i (40_prime_cache.md R114). -/
def execPrimeAt (s : State) : Host.Outcome State Fault Refusal :=
  let i := s.arg 0
  .next (match s.cache.primes[i.toNat]? with
    | some p => commit [p] s
    | none => raiseError .invalidInput i s)

end Sys2Proof.Machine
end

