-- ==== Sys2Proof/Machine/Factorizer.lean ====
section
/-! DEFINITION. The factorizer and the derived arithmetic: the subroutines of 41_factorizer.md R130 to R134 and the
commands R135 to R138. All arithmetic is exact (R132, R133). -/

namespace Sys2Proof.Machine

/-! ## Subroutines -/

/-- The inner loop of R130: divide `p` out of the remainder `r` while it divides, counting in `e`. `fuel` bounds the
divisions; `r` itself is enough for every `p ≥ 2` (log entry 10). -/
def divideOut (p : Nat) : Nat → Nat → Nat → Nat × Nat
  | 0, r, e => (r, e)
  | fuel + 1, r, e => if r % p = 0 then divideOut p fuel (r / p) (e + 1) else (r, e)

/-- What stands after the scan of R130: a remainder above 1 is itself prime. -/
def lastFactor (r : Nat) : List (Nat × Nat) :=
  if 1 < r then [(r, 1)] else []

/-- The scan of R130 over the cached primes, the limit `ceil_sqrt(r)` following the shrinking remainder `r`. -/
def factorScan : List Word → Nat → List (Nat × Nat)
  | [], r => lastFactor r
  | p :: ps, r =>
    if p.toNat ≤ ceilSqrt r then
      if r % p.toNat = 0 then
        let rest := divideOut p.toNat r (r / p.toNat) 1
        (p.toNat, rest.2) :: factorScan ps rest.1
      else factorScan ps r
    else lastFactor r

/-- Factorize(n) for `n ≥ 1` (41_factorizer.md R130): one growth to the first limit, then the scan. -/
def factorize (capacity n : Nat) (c : Cache) : Grown (List (Nat × Nat)) :=
  match growTo capacity (ceilSqrt n) c with
  | .full k c' => .full k c'
  | .done _ c' => .done (factorScan c'.primes n) c'

/-- Phi from the factorization: multiply first, then divide (41_factorizer.md R132). -/
def phiOf (n : Nat) (factors : List (Nat × Nat)) : Nat :=
  factors.foldl (fun res pe => res * (pe.1 - 1) / pe.1) n

/-- Sigma from the factorization, with the exponent 1 branch (41_factorizer.md R133). -/
def sigmaOf (factors : List (Nat × Nat)) : Nat :=
  factors.foldl (fun res pe =>
    if pe.2 = 1 then res * ((pe.1 * pe.1 - 1) / (pe.1 - 1))
    else res * ((pe.1 ^ (pe.2 + 1) - 1) / (pe.1 - 1))) 1

/-- Aliquot(n) = Sigma(n) - n (41_factorizer.md R134). -/
def aliquotOf (n : Nat) (factors : List (Nat × Nat)) : Nat :=
  sigmaOf factors - n

/-- The result vector of FACTORIZE: the count, then the pairs (41_factorizer.md R135). -/
def factorResult (factors : List (Nat × Nat)) : List Word :=
  BitVec.ofNat 32 factors.length :: factors.flatMap fun pe => [BitVec.ofNat 32 pe.1, BitVec.ofNat 32 pe.2]

/-- The shape the four commands share, in a block of the given capacity: check `n = ARG0`, factorize it, commit
`result`. -/
def factorizerCommand (result : Nat → List (Nat × Nat) → List Word) (capacity : Nat) (s : State) : State :=
  let n := s.arg 0
  checkPositiveAtMostNmax n
    (fun s => finishGrown (result n.toNat) (factorize capacity n.toNat s.cache) s) s

/-! ## Commands -/

/-- FACTORIZE n (41_factorizer.md R135). -/
def execFactorize (s : State) : Host.Outcome State Fault Refusal :=
  .next (factorizerCommand (fun _ factors => factorResult factors) Config.primeCapacity s)

/-- PHI n (41_factorizer.md R136). -/
def execPhi (s : State) : Host.Outcome State Fault Refusal :=
  .next (factorizerCommand (fun n factors => [BitVec.ofNat 32 (phiOf n factors)]) Config.primeCapacity s)

/-- SIGMA n (41_factorizer.md R137). -/
def execSigma (s : State) : Host.Outcome State Fault Refusal :=
  .next (factorizerCommand (fun _ factors => twoWords (sigmaOf factors)) Config.primeCapacity s)

/-- ALIQUOT n (41_factorizer.md R138). -/
def execAliquot (s : State) : Host.Outcome State Fault Refusal :=
  .next (factorizerCommand (fun n factors => twoWords (aliquotOf n factors)) Config.primeCapacity s)

end Sys2Proof.Machine
end

