-- ==== Sys2Proof/Machine/Binary64.lean ====
section
/-! DEFINITION. The one floating-point conversion of the block, the binary64 encoding of a 64-bit fraction
(00_scope.md R11, 42_prng.md R159). -/

namespace Sys2Proof.Machine

/-- Drop `k` low bits of `n`, rounding to nearest and a tie to the even neighbour (00_scope.md R11). -/
def roundShiftEven (n k : Nat) : Nat :=
  let q := n / 2 ^ k
  let r := n % 2 ^ k
  if 2 ^ k < 2 * r ∨ (2 ^ k = 2 * r ∧ q % 2 = 1) then q + 1 else q

/-- The 53-bit significand of `n > 0`, its leading bit at bit 52 (or 2^53 after a carry): exact when `n` has at most
53 bits, else rounded to nearest even. -/
def significand53 (n : Nat) : Nat :=
  if Nat.log2 n ≤ 52 then n * 2 ^ (52 - Nat.log2 n) else roundShiftEven n (Nat.log2 n - 52)

/-- `bits64(RNE64(n / 2^64))` for `n < 2^64`: the biased exponent is `log2 n - 64 + 1023`, and the significand is added
without its leading bit, so that a carry out of the fraction moves into the exponent (00_scope.md R11). -/
def bitsOfFraction64 (n : Nat) : DWord :=
  if n = 0 then 0
  else BitVec.ofNat 64 ((Nat.log2 n + 959) * 2 ^ 52 + (significand53 n - 2 ^ 52))

/-- ToFloat(small, large) = bits64(RNE64(large·2^-32 + small·2^-64)) (42_prng.md R159). -/
def toFloat (small large : Word) : DWord :=
  bitsOfFraction64 (large.toNat * 2 ^ 32 + small.toNat)

end Sys2Proof.Machine
end

