-- ==== Sys2Proof/Machine/Digest.lean ====
section
/-! DEFINITION. DIGEST160, which the spec fixes to SHA-1 (42_prng.md R150 to R157; log entry 7). -/

namespace Sys2Proof.Machine

/-- The five chaining words H0 to H4 of SHA-1, and the working words a to e of a block (42_prng.md R152, R155). -/
structure DigestWords where
  h0 : Word
  h1 : Word
  h2 : Word
  h3 : Word
  h4 : Word
  deriving DecidableEq, Repr

/-- The initial hash value (42_prng.md R152). -/
def digestInit : DigestWords where
  h0 := 0x67452301
  h1 := 0xEFCDAB89
  h2 := 0x98BADCFE
  h3 := 0x10325476
  h4 := 0xC3D2E1F0

/-- The big-endian byte list of `v` in `n` bytes. -/
def bytesBE (n v : Nat) : List Byte :=
  (List.range n).map fun i => BitVec.ofNat 8 (v / 2 ^ (8 * (n - 1 - i)))

/-- The number of zero bytes of the padding: the least `z` with `(L + 1 + z) mod 64 = 56` (42_prng.md R151). -/
def padZeros (len : Nat) : Nat := (119 - len % 64) % 64

/-- The padded message `M ‖ 0x80 ‖ 0x00^z ‖ len64` (42_prng.md R151). -/
def padMessage (m : List Byte) : List Byte :=
  m ++ [0x80] ++ List.replicate (padZeros m.length) 0 ++ bytesBE 8 (8 * m.length)

/-- The number of 64-byte blocks of the padded message (42_prng.md R151). -/
def blockCount (len : Nat) : Nat := (len + 8) / 64 + 1

/-- Bytes read as big-endian 32-bit words (42_prng.md R153). -/
def wordsBE : List Byte → List Word
  | q0 :: q1 :: q2 :: q3 :: rest => (q0 ++ q1 ++ q2 ++ q3 : BitVec 32) :: wordsBE rest
  | _ => []

/-- Extend the message schedule by `n` words; `ws` holds the words so far, the newest first, so that its entries 2, 7,
13 and 15 are Wt[t-3], Wt[t-8], Wt[t-14] and Wt[t-16] (42_prng.md R153). -/
def extendSchedule : Nat → List Word → List Word
  | 0, ws => ws
  | n + 1, ws => extendSchedule n (rotl32 (ws.getD 2 0 ^^^ ws.getD 7 0 ^^^ ws.getD 13 0 ^^^ ws.getD 15 0) 1 :: ws)

/-- The message schedule Wt[0] .. Wt[79] of one block of sixteen words (42_prng.md R153). -/
def messageSchedule (block : List Word) : List Word := (extendSchedule 64 block.reverse).reverse

/-- The round function f_t (42_prng.md R154). -/
def roundFunction (t : Nat) (b c d : Word) : Word :=
  if t < 20 then (b &&& c) ||| (~~~b &&& d)
  else if t < 40 then b ^^^ c ^^^ d
  else if t < 60 then (b &&& c) ||| (b &&& d) ||| (c &&& d)
  else b ^^^ c ^^^ d

/-- The round constant K_t (42_prng.md R154). -/
def roundConstant (t : Nat) : Word :=
  if t < 20 then 0x5A827999
  else if t < 40 then 0x6ED9EBA1
  else if t < 60 then 0x8F1BBCDC
  else 0xCA62C1D6

/-- One round with schedule word `w` (42_prng.md R155). -/
def digestRound (t : Nat) (w : Word) (v : DigestWords) : DigestWords where
  h0 := rotl32 v.h0 5 + roundFunction t v.h1 v.h2 v.h3 + v.h4 + roundConstant t + w
  h1 := v.h0
  h2 := rotl32 v.h1 30
  h3 := v.h2
  h4 := v.h3

/-- The rounds from number `t` on, one for each remaining schedule word (42_prng.md R155). -/
def digestRounds : Nat → List Word → DigestWords → DigestWords
  | _, [], v => v
  | t, w :: ws, v => digestRounds (t + 1) ws (digestRound t w v)

/-- The compression of one block of sixteen words (42_prng.md R155). -/
def compress (h : DigestWords) (block : List Word) : DigestWords :=
  let v := digestRounds 0 (messageSchedule block) h
  { h0 := h.h0 + v.h0, h1 := h.h1 + v.h1, h2 := h.h2 + v.h2, h3 := h.h3 + v.h3, h4 := h.h4 + v.h4 }

/-- The compression of `n` blocks in order (42_prng.md R155). -/
def compressBlocks : Nat → List Word → DigestWords → DigestWords
  | 0, _, h => h
  | n + 1, ws, h => compressBlocks n (ws.drop 16) (compress h (ws.take 16))

/-- DIGEST160(M), as its five big-endian words W_0 .. W_4 (42_prng.md R150, R156, R157). -/
def digest160 (m : List Byte) : DigestWords :=
  compressBlocks (blockCount m.length) (wordsBE (padMessage m)) digestInit

/-- The digest as its 20 bytes g_0 .. g_19: the big-endian bytes of each word (42_prng.md R156). -/
def digestBytes (h : DigestWords) : List Byte :=
  bytesBE 4 h.h0.toNat ++ bytesBE 4 h.h1.toNat ++ bytesBE 4 h.h2.toNat ++ bytesBE 4 h.h3.toNat ++ bytesBE 4 h.h4.toNat

end Sys2Proof.Machine
end

