-- ==== Sys2Proof/Machine/Prng.lean ====
section
/-! DEFINITION. The PRNG family: the generator step (42_prng.md R158) and the commands R160 to R164. -/

namespace Sys2Proof.Machine

/-! ## Generator -/

/-- Step(): the state after one draw (42_prng.md R158). 32-bit addition and subtraction are `wrap32` of the exact
ones (00_scope.md R8). -/
def Rng.step (g : Rng) : Rng :=
  let t := g.a - rotl32 g.b 27
  let a' := g.b ^^^ rotl32 g.c 17
  { a := a', b := g.c + g.d, c := g.d + t, d := a' + t }

/-- The word a draw that led to state `g` returned: D' (42_prng.md R158). -/
def Rng.draw (g : Rng) : Word := g.d

/-- SeedWords: the first four digest words become A, B, C, D (42_prng.md R157). -/
def Rng.ofDigest (h : DigestWords) : Rng := { a := h.h0, b := h.h1, c := h.h2, d := h.h3 }

/-- `(v * max) >> 32`, exact (42_prng.md R164). -/
def boundedDraw (v max : Word) : Word :=
  BitVec.ofNat 32 (v.toNat * max.toNat / 2 ^ 32)

/-! ## Commands -/

/-- The commit of SEED: the state words from the digest of the seed bytes (42_prng.md R160). -/
def seedFrom (bytes : List Byte) (s : State) : State :=
  let h := digest160 bytes
  commit [h.h0, h.h1, h.h2, h.h3, h.h4] { s with rng := Rng.ofDigest h, seeded := true }

/-- SEED (42_prng.md R160): InvalidInput(L) when `L > SEED_CAP`. -/
def execSeed (s : State) : Host.Outcome State Fault Refusal :=
  .next (if Config.seedCap < s.seedLen.toNat then raiseError .invalidInput s.seedLen s
    else seedFrom s.seedBytes s)

/-- RNG_LOAD (42_prng.md R161). -/
def execRngLoad (s : State) : Host.Outcome State Fault Refusal :=
  .next (commit [] { s with
    rng := { a := s.arg 0, b := s.arg 1, c := s.arg 2, d := s.arg 3 }
    seeded := true })

/-- NEXT32 (42_prng.md R162). -/
def execNext32 (s : State) : Host.Outcome State Fault Refusal :=
  .next (checkSeeded (fun s =>
    let g := s.rng.step
    commit [g.draw] { s with rng := g }) s)

/-- NEXT_FLOAT (42_prng.md R163): the first draw is `small`, the second `large`. -/
def execNextFloat (s : State) : Host.Outcome State Fault Refusal :=
  .next (checkSeeded (fun s =>
    let g := s.rng.step
    let g' := g.step
    commit (twoWords (toFloat g.draw g'.draw).toNat ++ [g.draw, g'.draw]) { s with rng := g' }) s)

/-- NEXT_BOUNDED max (42_prng.md R164): InvalidInput before NotSeeded (60_exceptions.md R203). -/
def execNextBounded (s : State) : Host.Outcome State Fault Refusal :=
  let max := s.arg 0
  .next (checkPositiveAtMostNmax max (checkSeeded (fun s =>
    let g := s.rng.step
    commit [boundedDraw g.draw max] { s with rng := g })) s)

end Sys2Proof.Machine
end

