-- ==== Sys2Proof/Machine/Dispatch.lean ====
section
/-! DEFINITION. exec: one arm per command, each one direct call of its meaning. -/

namespace Sys2Proof.Machine

def exec (i : Instr) (s : State) : Host.Outcome State Fault Refusal :=
  match i with
  | .cacheReset => Sys2Proof.Machine.execCacheReset s
  | .growTo => Sys2Proof.Machine.execGrowTo s
  | .isPrime => Sys2Proof.Machine.execIsPrime s
  | .classify => Sys2Proof.Machine.execClassify s
  | .primeAt => Sys2Proof.Machine.execPrimeAt s
  | .factorize => Sys2Proof.Machine.execFactorize s
  | .phi => Sys2Proof.Machine.execPhi s
  | .sigma => Sys2Proof.Machine.execSigma s
  | .aliquot => Sys2Proof.Machine.execAliquot s
  | .seed => Sys2Proof.Machine.execSeed s
  | .rngLoad => Sys2Proof.Machine.execRngLoad s
  | .next32 => Sys2Proof.Machine.execNext32 s
  | .nextFloat => Sys2Proof.Machine.execNextFloat s
  | .nextBounded => Sys2Proof.Machine.execNextBounded s

end Sys2Proof.Machine
end

