-- ==== Sys2Proof/Machine/Step.lean ====
section
/-! DEFINITION. One step of the machine: the sequencer runs the accepted command to its commit, or the host performs
its oldest operation (00_scope.md R3, 70_reset_and_hazards.md R245). -/

namespace Sys2Proof.Machine

/-- The sequencer's step: decode the accepted word and run the command; an illegal word raises IllegalCommand
(30_encoding.md R91, R92). -/
def sequencerStep (s : State) : Host.Outcome State Fault Refusal :=
  match decode s.lastCmd with
  | .ok i => exec i s
  | .error _ => .next (execIllegal s.lastCmd s)

/-- One step. -/
def step (s : State) : Host.Outcome State Fault Refusal :=
  if s.sequencerMoves then sequencerStep s else hostStep s

/-- `s` with the command word `w` accepted and its latency passed, so that the very next step runs it (log entry 2). The
block consumes a command word from the CMD write that delivers it (20_memory.md R74); this stands for that write. -/
def State.withFetchWord (s : State) (nbits w : Nat) : State :=
  acceptCommand 0 (BitVec.ofNat 32 (w % 2 ^ nbits)) s

end Sys2Proof.Machine
end

