-- ==== Sys2Proof/Machine/Assembler.lean ====
section
/-! DEFINITION. The host program's assembler (30_encoding.md R87 to R89): statements, the host operations each expands
to, and the text form of a line. What the text form leaves open is in log entry 15. -/

namespace Sys2Proof.Machine

/-! ## Statements and their expansion -/

/-- A statement of a host program: the primitives of 30_encoding.md R87, then the pseudo-instructions of R88 by the
operands they take. -/
inductive Stmt where
  /-- `wr REG, v`. -/
  | wr (r : Reg) (v : Word)
  /-- `rd REG`. -/
  | rd (r : Reg)
  /-- `cmd MNEMONIC`. -/
  | cmd (i : Instr)
  /-- `cmdw v`: a raw command word, legal or not. -/
  | cmdw (v : Word)
  /-- `poll`. -/
  | poll
  /-- A command without operands: CACHE_RESET, NEXT32, NEXT_FLOAT. -/
  | plain (i : Instr)
  /-- A command with the one operand `x` in ARG0. -/
  | unary (i : Instr) (x : Word)
  /-- `RNG_LOAD a, b, c, d`. -/
  | rngLoad (a b c d : Word)
  /-- `SEED "s"`, the literal as its bytes. -/
  | seed (bytes : List Byte)
  deriving DecidableEq, Repr

/-- The commands whose pseudo-instruction takes no operand (30_encoding.md R88). -/
def takesNoOperand : Instr → Bool
  | .cacheReset | .next32 | .nextFloat => true
  | .growTo | .isPrime | .classify | .primeAt | .factorize | .phi | .sigma | .aliquot | .nextBounded => false
  | .seed | .rngLoad => false

/-- The commands whose pseudo-instruction takes one operand in ARG0 (30_encoding.md R88). -/
def takesOneOperand : Instr → Bool
  | .growTo | .isPrime | .classify | .primeAt | .factorize | .phi | .sigma | .aliquot | .nextBounded => true
  | .cacheReset | .next32 | .nextFloat | .seed | .rngLoad => false

/-- `MemWrite(BLOCK_BASE + off(REG), 4, v)` (30_encoding.md R87). -/
def writeOp (r : Reg) (v : Word) : HostOp := .write (Config.blockBase + r.offset) 4 v

/-- `MemRead(BLOCK_BASE + off(REG), 4)` (30_encoding.md R87). -/
def readOp (r : Reg) : HostOp := .read (Config.blockBase + r.offset) 4

/-- The command of a mnemonic and the poll that ends its pseudo-instruction (30_encoding.md R88). -/
def commandOps (i : Instr) : List HostOp := [writeOp .cmd (encode i), .poll]

/-- The word `w_j = Σ s_{4j+t} * 2^(8t)` of up to four seed bytes, an absent byte counting as 0 (30_encoding.md
R89). -/
def packSeedWord : List Byte → Word
  | [] => 0
  | b :: bs => BitVec.ofNat 32 (b.toNat + 2 ^ 8 * (packSeedWord bs).toNat)

/-- The writes of SEED_BUF<j>, SEED_BUF<j+1>, ... that hold the bytes `bs`, `fuel` words at most (30_encoding.md
R89). -/
def seedBufferWrites : Nat → Nat → List Byte → List HostOp
  | _, 0, _ => []
  | _, _, [] => []
  | j, fuel + 1, bs =>
    .write (Config.blockBase + 0x100 + 4 * j) 4 (packSeedWord (bs.take 4)) :: seedBufferWrites (j + 1) fuel (bs.drop 4)

/-- The host operations a statement expands to, in order (30_encoding.md R87 to R89). -/
def Stmt.expand : Stmt → List HostOp
  | .wr r v => [writeOp r v]
  | .rd r => [readOp r]
  | .cmd i => [writeOp .cmd (encode i)]
  | .cmdw v => [writeOp .cmd v]
  | .poll => [.poll]
  | .plain i => commandOps i
  | .unary i x => writeOp (.arg 0) x :: commandOps i
  | .rngLoad a b c d =>
    [writeOp (.arg 0) a, writeOp (.arg 1) b, writeOp (.arg 2) c, writeOp (.arg 3) d] ++ commandOps .rngLoad
  | .seed bs =>
    seedBufferWrites 0 64 bs ++ writeOp .seedLen (BitVec.ofNat 32 bs.length) :: commandOps .seed

/-- The host operations of a host program. -/
def assemble (program : List Stmt) : List HostOp := program.flatMap Stmt.expand

/-! ## Text -/

/-- A token of a line. -/
inductive Token where
  /-- A name or a number. -/
  | word (cs : List Char)
  /-- The comma between operands. -/
  | comma
  /-- A string literal, as its bytes. -/
  | str (bytes : List Byte)
  deriving DecidableEq, Repr

/-- Where the lexer stands: inside a word (its characters reversed) or a string literal (its bytes reversed). -/
inductive LexMode where
  | word (cs : List Char)
  | str (bytes : List Byte)
  deriving DecidableEq, Repr

/-- The value of a hexadecimal digit. -/
def hexDigit (c : Char) : Option Nat :=
  if '0' ≤ c ∧ c ≤ '9' then some (c.toNat - '0'.toNat)
  else if 'a' ≤ c ∧ c ≤ 'f' then some (c.toNat - 'a'.toNat + 10)
  else if 'A' ≤ c ∧ c ≤ 'F' then some (c.toNat - 'A'.toNat + 10)
  else none

/-- The value of a decimal digit. -/
def decDigit (c : Char) : Option Nat :=
  if '0' ≤ c ∧ c ≤ '9' then some (c.toNat - '0'.toNat) else none

/-- Digits read in a base, the value so far in `acc`. -/
def digits (base : Nat) (digit : Char → Option Nat) : Nat → List Char → Option Nat
  | acc, [] => some acc
  | acc, c :: cs =>
    match digit c with
    | some d => digits base digit (acc * base + d) cs
    | none => none

/-- A number: decimal, or hexadecimal after `0x` (30_encoding.md R87). -/
def number : List Char → Option Nat
  | [] => none
  | '0' :: 'x' :: c :: cs => digits 16 hexDigit 0 (c :: cs)
  | c :: cs => digits 10 decDigit 0 (c :: cs)

/-- A number that a 32-bit register can hold. -/
def wordNumber (cs : List Char) : Option Word :=
  match number cs with
  | some n => if n < 2 ^ 32 then some (BitVec.ofNat 32 n) else none
  | none => none

/-- The UTF-8 bytes of a character (30_encoding.md R89). -/
def utf8Bytes (c : Char) : List Byte :=
  let n := c.toNat
  if n < 0x80 then [BitVec.ofNat 8 n]
  else if n < 0x800 then [BitVec.ofNat 8 (0xC0 + n / 0x40), BitVec.ofNat 8 (0x80 + n % 0x40)]
  else if n < 0x10000 then
    [BitVec.ofNat 8 (0xE0 + n / 0x1000), BitVec.ofNat 8 (0x80 + n / 0x40 % 0x40), BitVec.ofNat 8 (0x80 + n % 0x40)]
  else
    [BitVec.ofNat 8 (0xF0 + n / 0x40000), BitVec.ofNat 8 (0x80 + n / 0x1000 % 0x40),
     BitVec.ofNat 8 (0x80 + n / 0x40 % 0x40), BitVec.ofNat 8 (0x80 + n % 0x40)]

/-- The word being read, if any, in front of the tokens after it. -/
def flushWord (cs : List Char) (rest : List Token) : List Token :=
  if cs.isEmpty then rest else .word cs.reverse :: rest

/-- The tokens of a line: words end at blanks and commas, `;` begins a comment, a string literal is written as UTF-8
with `\xHH` for one byte (30_encoding.md R87, R89). DESIGN CHOICE, log entry 15: in a literal a backslash that does not
begin `\xHH` makes the line no statement, where R89 does not say whether it is the byte 0x5C or an error. -/
def lex : LexMode → List Char → Option (List Token)
  | .word cs, [] => some (flushWord cs [])
  | .str _, [] => none
  | .str bs, '"' :: rest => (lex (.word []) rest).map (.str bs.reverse :: ·)
  | .str bs, '\\' :: 'x' :: h :: l :: rest =>
    match hexDigit h, hexDigit l with
    | some h, some l => lex (.str (BitVec.ofNat 8 (16 * h + l) :: bs)) rest
    | _, _ => none
  | .str bs, c :: rest => if c = '\\' then none else lex (.str ((utf8Bytes c).reverse ++ bs)) rest
  | .word cs, c :: rest =>
    if c = ';' then some (flushWord cs [])
    else if c = '"' then (lex (.str []) rest).map (flushWord cs)
    else if c = ',' then (lex (.word []) rest).map fun ts => flushWord cs (.comma :: ts)
    else if c = ' ' ∨ c = '\t' then (lex (.word []) rest).map (flushWord cs)
    else lex (.word (c :: cs)) rest

/-- The command of a mnemonic. -/
def instrNamed (cs : List Char) : Option Instr :=
  Instr.all.find? fun i => i.mnemonic.toList == cs

/-- The registers with a name of their own (10_state.md R28). -/
def namedRegs : List (String × Reg) :=
  [("ID", .id), ("CMD", .cmd), ("STATUS", .status), ("ERRINFO", .errInfo), ("NMAX", .nmax), ("HW", .hw),
   ("PCOUNT", .pcount), ("PCAP", .pcap), ("RNG_A", .rngA), ("RNG_B", .rngB), ("RNG_C", .rngC), ("RNG_D", .rngD),
   ("SEED_LEN", .seedLen)]

/-- The decimal index of `name<index>` for a register array of size `n` with that name; no leading zero. -/
def arrayIndex (name : String) (n : Nat) (cs : List Char) : Option (Fin n) :=
  let rest := cs.drop name.toList.length
  if cs.take name.toList.length = name.toList ∧ rest ≠ [] ∧ (rest.length = 1 ∨ rest.head? ≠ some '0') then
    match digits 10 decDigit 0 rest with
    | some k => if h : k < n then some ⟨k, h⟩ else none
    | none => none
  else none

/-- The register of a name (10_state.md R28). -/
def regNamed (cs : List Char) : Option Reg :=
  match namedRegs.find? fun nr => nr.1.toList == cs with
  | some nr => some nr.2
  | none =>
    match arrayIndex "ARG" 4 cs with
    | some i => some (.arg i)
    | none =>
      match arrayIndex "RES" 32 cs with
      | some i => some (.res i)
      | none => (arrayIndex "SEED_BUF" 64 cs).map .seedBuf

/-- The statement of a mnemonic with the operands after it (30_encoding.md R88). -/
def pseudo (i : Instr) : List Token → Option Stmt
  | [] => if takesNoOperand i then some (.plain i) else none
  | [.word x] => if takesOneOperand i then (wordNumber x).map (.unary i) else none
  | [.str bs] => if i = .seed ∧ bs.length ≤ Config.seedCap then some (.seed bs) else none
  | [.word a, .comma, .word b, .comma, .word c, .comma, .word d] =>
    if i = .rngLoad then
      match wordNumber a, wordNumber b, wordNumber c, wordNumber d with
      | some a, some b, some c, some d => some (.rngLoad a b c d)
      | _, _, _, _ => none
    else none
  | _ => none

/-- The statement that the tokens of a line make; `none` inside for a line without one, `none` outside for no
statement of the language (30_encoding.md R87, R88). -/
def statement : List Token → Option (Option Stmt)
  | [] => some none
  | .word w :: rest =>
    if w = "wr".toList then
      match rest with
      | [.word r, .comma, .word v] =>
        match regNamed r, wordNumber v with
        | some r, some v => some (some (.wr r v))
        | _, _ => none
      | _ => none
    else if w = "rd".toList then
      match rest with
      | [.word r] => (regNamed r).map fun r => some (.rd r)
      | _ => none
    else if w = "cmd".toList then
      match rest with
      | [.word m] => (instrNamed m).map fun i => some (.cmd i)
      | _ => none
    else if w = "cmdw".toList then
      match rest with
      | [.word v] => (wordNumber v).map fun v => some (.cmdw v)
      | _ => none
    else if w = "poll".toList then
      match rest with
      | [] => some (some .poll)
      | _ => none
    else
      match instrNamed w with
      | some i => (pseudo i rest).map some
      | none => none
  | _ => none

/-- One line of a host program (30_encoding.md R87). -/
def parseLine (line : List Char) : Option (Option Stmt) :=
  match lex (.word []) line with
  | some ts => statement ts
  | none => none

/-- A host program, one statement a line (30_encoding.md R87); `none` if some line is no statement. -/
def parseProgram : List (List Char) → Option (List Stmt)
  | [] => some []
  | line :: lines =>
    match parseLine line, parseProgram lines with
    | some (some stmt), some rest => some (stmt :: rest)
    | some none, some rest => some rest
    | _, _ => none

end Sys2Proof.Machine
end

