-- ==== Sys2Proof/WellFormed.lean ====
section
/-! DEFINITION. Well-formedness: of a command word (30_encoding.md R80, R85), of a bus access (20_memory.md R60, R61), of
an instruction and of a host statement (30_encoding.md R88, R89). Each check is a Bool. -/

namespace Sys2Proof

/-- A command has no operand in its word (30_encoding.md R82), so every command is well formed. -/
def Instr.wf : Instr → Bool
  | .cacheReset | .growTo | .isPrime | .classify | .primeAt => true
  | .factorize | .phi | .sigma | .aliquot => true
  | .seed | .rngLoad | .next32 | .nextFloat | .nextBounded => true

namespace WellFormed

/-- RSV is 0 and OPCODE is one of the fourteen values (30_encoding.md R85). -/
def commandWord (w : Word) : Bool :=
  reservedField w == 0 && [0x10, 0x11, 0x12, 0x13, 0x14, 0x20, 0x21, 0x22, 0x23, 0x30, 0x31, 0x32, 0x33,
    0x34].contains (opcodeField w)

/-- Four bytes wide, at a multiple of 4, inside the register window at `base` (20_memory.md R60, R61). -/
def access (base addr width : Nat) : Bool :=
  width == 4 && addr % 4 == 0 && decide (base ≤ addr) && decide (addr < base + Config.windowBytes)

/-- A host operation that is an access is a well-formed one. -/
def hostOp (base : Nat) : Machine.HostOp → Bool
  | .read addr width => access base addr width
  | .write addr width _ => access base addr width
  | .poll => true
  | .reset => true

/-- A pseudo-instruction has the operands 30_encoding.md R88 gives its command, and a seed fits the buffer (00_scope.md
R6, SEED_CAP). -/
def stmt : Machine.Stmt → Bool
  | .wr _ _ => true
  | .rd _ => true
  | .cmd i => i.wf
  | .cmdw _ => true
  | .poll => true
  | .plain i => Machine.takesNoOperand i
  | .unary i _ => Machine.takesOneOperand i
  | .rngLoad _ _ _ _ => true
  | .seed bs => decide (bs.length ≤ Config.seedCap)

end WellFormed

end Sys2Proof
end

