-- ==== Sys2Proof/Safety.lean ====
section
/-! DEFINITION. The terms in which claims about the machine are stated: the invariants of 10_state.md R23 and R32, the
cache that a high-water mark determines, what a commit leaves (30_encoding.md R93, 60_exceptions.md R201), what a host
access does, and the value of a binary64 encoding (00_scope.md R11). Nothing the machine runs depends on this file. -/

namespace Sys2Proof.Machine

/-! ## Invariants -/

/-- The cache invariants of 10_state.md R23 (a) to (d), with the bound on pcount of R22. -/
structure Cache.Inv (capacity : Nat) (c : Cache) : Prop where
  /-- (a) the first entry is 2. -/
  first_entry : c.primes.head? = some 2
  /-- (a) `hw ≥ 2`. -/
  two_le_hw : 2 ≤ c.hw
  /-- (b) strictly ascending. -/
  ascending : c.primes.Pairwise (· < ·)
  /-- (c) every entry is prime and at most `hw`. -/
  entries_prime : ∀ p ∈ c.primes, p.toNat.Prime ∧ p ≤ c.hw
  /-- (d) a classified number that is prime is an entry (with (c), the "if and only if"). -/
  classified : ∀ k : Word, k ≤ c.hw → k.toNat.Prime → k ∈ c.primes
  /-- R22: `pcount ≤ PRIME_CAPACITY`. -/
  fits : c.primes.length ≤ capacity

/-- What holds of every state of the block that a run reaches. -/
structure State.Inv (s : State) : Prop where
  /-- The prime cache is as 10_state.md R23 says. -/
  cache : s.cache.Inv Config.primeCapacity
  /-- Before the first SEED or RNG_LOAD the words A..D are still those of reset (R24, R25). -/
  unseeded : s.seeded = false → s.rng = Rng.zero
  /-- ERRCODE is 0 exactly when ERR is 0 (R32). -/
  error_code : s.err = s.errCode.isSome
  /-- From acceptance to commit DONE and ERR are 0 (R32). -/
  busy_status : s.phase = .busy → s.done = false ∧ s.err = false
  /-- The model's own: nothing is held back while IDLE. -/
  idle_hold : s.phase = .idle → s.hold = 0
  /-- After an error commit all RES registers are 0 (R41). -/
  error_results : s.err = true → s.res = Vector.replicate 32 0
  /-- An IDLE block with DONE = 0 has accepted no command since reset (R32). -/
  fresh : s.phase = .idle → s.done = false → s.lastCmd = 0 ∧ s.res = Vector.replicate 32 0

/-! ## What the prime engine should hold and answer -/

/-- The primes up to `n`, ascending, as cache entries. -/
def primesUpTo (n : Nat) : List Word :=
  ((List.range (n + 1)).filter fun k => decide k.Prime).map (BitVec.ofNat 32)

/-- The one cache with high-water mark `n` that 10_state.md R23 allows. -/
def cacheUpTo (n : Nat) : Cache := { primes := primesUpTo n, hw := BitVec.ofNat 32 n }

/-- The distinct primes that divide `n`, ascending. -/
def primeDivisors (n : Nat) : List Nat :=
  (List.range (n + 1)).filter fun p => decide (p.Prime ∧ p ∣ n)

/-! ## What a commit leaves -/

/-- The state after a successful commit with result vector `result` and the engines' new state (30_encoding.md R93):
RES from the vector and padded with 0, DONE = 1, ERR = ERRCODE = 0, IDLE; all else as before. `hold := 0` is the model's
own bookkeeping (log entry 1). -/
def afterCommit (s : State) (result : List Word) (cache : Cache) (rng : Rng) (seeded : Bool) : State :=
  { s with
    cache := cache
    rng := rng
    seeded := seeded
    res := Vector.ofFn fun i : Fin 32 => result.getD i.val 0
    phase := .idle
    done := true
    err := false
    errCode := none
    hold := 0 }

/-- The state after an error commit (60_exceptions.md R201): RES all 0, ERRINFO the information, DONE = ERR = 1, ERRCODE
the kind, IDLE; the cache as given (it differs from acceptance only after CacheFull), all else as before. `hold := 0` is
the model's own bookkeeping (log entry 1). -/
def afterError (s : State) (e : ErrKind) (info : Word) (cache : Cache) : State :=
  { s with
    cache := cache
    res := Vector.replicate 32 0
    errInfo := info
    phase := .idle
    done := true
    err := true
    errCode := some e
    hold := 0 }

/-! ## Host accesses -/

/-- The host moves next, and its oldest operation is `op` with `rest` after it. -/
structure HostMoves (s : State) (op : HostOp) (rest : List HostOp) : Prop where
  host_is : s.host = op :: rest
  not_sequencer : s.sequencerMoves = false

/-- A 4-byte bus read at offset `off` returns `v` and changes nothing of the block. -/
def HostReadGives (s : State) (off : Nat) (v : Word) : Prop :=
  ∀ rest, HostMoves s (.read (Config.blockBase + off) 4) rest →
    step s = .next { s with host := rest, reads := v :: s.reads, hold := s.hold - 1 }

/-- A 4-byte bus write of `v` at offset `off` turns the block's state `s` into `t`; the operation is then done. -/
def HostWriteGives (s : State) (off : Nat) (v : Word) (t : State) : Prop :=
  ∀ rest, HostMoves s (.write (Config.blockBase + off) 4 v) rest →
    step s = .next { t with host := rest, hold := s.hold - 1 }

/-- The platform's reset is the next thing to happen. -/
def State.resetNext (s : State) : Prop := s.sequencerMoves = false ∧ s.host.head? = some .reset

/-! ## Sequences of draws -/

/-- The RES registers that the commands of a list leave, one after another, from state `s` (42_prng.md R165). -/
def drawResults : List Instr → State → List (Vector Word 32)
  | [], _ => []
  | i :: is, s =>
    match exec i s with
    | .next t => t.res :: drawResults is t
    | .fault _ => []
    | .refused _ => []

/-! ## Runs that do not stop -/

/-- Every pending access of the host is a well-formed block access (20_memory.md R60, R61). -/
def State.hostWf (s : State) : Prop := ∀ op ∈ s.host, WellFormed.hostOp Config.blockBase op = true

/-! ## binary64 -/

/-- A finite binary64 encoding with sign 0 (00_scope.md R11). -/
def isFiniteNonneg (f : DWord) : Prop := f.toNat / 2 ^ 52 < 2047

/-- The value of a finite binary64 encoding with sign 0: exponent bias 1023, 52 fraction bits, gradual underflow
(00_scope.md R11). -/
def binary64Value (f : DWord) : ℚ :=
  if f.toNat / 2 ^ 52 = 0 then (f.toNat % 2 ^ 52 : ℕ) * (2 : ℚ) ^ (-1074 : ℤ)
  else ((2 ^ 52 + f.toNat % 2 ^ 52 : ℕ) : ℚ) * (2 : ℚ) ^ ((f.toNat / 2 ^ 52 : ℕ) - 1075 : ℤ)

end Sys2Proof.Machine
end

