-- ==== Sys2Proof/Certificates/Slice0/Obligations.lean ====
section
/-! DEFINITION. The statements for the provers, from the numbered rules of spec/. The terms they use are in
Sys2Proof/Safety.lean. An equation `exec i s = .next (afterCommit …)` or `… (afterError …)` gives the whole next state,
so it is the command's result, its completion and its frame at once. -/

open Sys2Proof Sys2Proof.Machine

/-! ## Numeric primitives -/

/-- 00_scope.md R8: `ceil_sqrt(k)` is the least integer `s ≥ 0` with `s * s ≥ k`. -/
def Obligations.CeilSqrtIsTheLeastRoot : Prop :=
  ∀ k : Nat, k ≤ ceilSqrt k * ceilSqrt k ∧ ∀ t : Nat, k ≤ t * t → ceilSqrt k ≤ t

/-! ## Encoding -/

/-- 30_encoding.md R80, R83, R86: a word decodes to a command exactly when it is the command's word. -/
def Obligations.DecodeAndEncodeAgree : Prop :=
  ∀ (w : Word) (i : Instr), decode w = .ok i ↔ encode i = w

/-- 30_encoding.md R83: the fourteen words of the opcode map, written out. -/
def Obligations.OpcodeMapWordsDecode : Prop :=
  decode 0x00000010 = .ok .cacheReset ∧ decode 0x00000011 = .ok .growTo ∧ decode 0x00000012 = .ok .isPrime ∧
  decode 0x00000013 = .ok .classify ∧ decode 0x00000014 = .ok .primeAt ∧ decode 0x00000020 = .ok .factorize ∧
  decode 0x00000021 = .ok .phi ∧ decode 0x00000022 = .ok .sigma ∧ decode 0x00000023 = .ok .aliquot ∧
  decode 0x00000030 = .ok .seed ∧ decode 0x00000031 = .ok .rngLoad ∧ decode 0x00000032 = .ok .next32 ∧
  decode 0x00000033 = .ok .nextFloat ∧ decode 0x00000034 = .ok .nextBounded

/-- 30_encoding.md R85: a word is illegal exactly when RSV ≠ 0 or OPCODE is none of the fourteen values, and then, when
the sequencer moves, it raises IllegalCommand(word) and changes nothing other than what 60_exceptions.md R201 gives. -/
def Obligations.IllegalWordRaisesIllegalCommand : Prop :=
  ∀ w : Word,
    ((∃ e, decode w = .error e) ↔
      (w.toNat / 2 ^ 8 ≠ 0 ∨
        w.toNat % 2 ^ 8 ∉ [0x10, 0x11, 0x12, 0x13, 0x14, 0x20, 0x21, 0x22, 0x23, 0x30, 0x31, 0x32, 0x33, 0x34])) ∧
    ∀ s : State, s.sequencerMoves = true → s.lastCmd = w →
      (w.toNat / 2 ^ 8 ≠ 0 ∨
        w.toNat % 2 ^ 8 ∉ [0x10, 0x11, 0x12, 0x13, 0x14, 0x20, 0x21, 0x22, 0x23, 0x30, 0x31, 0x32, 0x33, 0x34]) →
      step s = .next (afterError s .illegalCommand w s.cache)

/-! ## The step -/

/-- 30_encoding.md R91, R92; 70_reset_and_hazards.md R245: when the accepted word decodes and the latency has passed (or
the host has nothing to do), the step runs the command. -/
def Obligations.StepRunsTheAcceptedCommand : Prop :=
  ∀ (s : State) (i : Instr), s.phase = .busy → (s.hold = 0 ∨ s.host = []) → decode s.lastCmd = .ok i →
    step s = exec i s

/-- 30_encoding.md R90: a CMD write while IDLE accepts the command, a CMD write while BUSY is not accepted (20_memory.md
R63(c): it is dropped and sets OVR). The fields `hold` and `accepted` are the model's own (log entry 1). -/
def Obligations.CommandWriteIsAcceptedWhenIdle : Prop :=
  ∀ (s : State) (w : Word) (rest : List HostOp), HostMoves s (.write (Config.blockBase + 0x004) 4 w) rest →
    (s.phase = .idle →
      step s = .next { s with
        host := rest
        lastCmd := w
        phase := .busy
        done := false
        err := false
        errCode := none
        hold := Config.latency s.accepted
        accepted := s.accepted + 1 }) ∧
    (s.phase = .busy → step s = .next { s with host := rest, ovr := true, hold := s.hold - 1 })

/-- 30_encoding.md R94, 70_reset_and_hazards.md R245: a BUSY block commits after finitely many steps, at most one more
than the host operations that still fall before the commit; DONE is then 1 unless the host asserted reset meanwhile. -/
def Obligations.BusyBlockCommits : Prop :=
  ∀ s : State, s.phase = .busy → s.hostWf →
    ∃ (k : Nat) (t : State), k ≤ s.hold + 1 ∧ Sys2Proof.core.run k s = .next t ∧ t.phase = .idle ∧
      (HostOp.reset ∉ s.host → t.done = true ∧ t.lastCmd = s.lastCmd)

/-- 60_exceptions.md R214: an IDLE block whose host does nothing keeps its state. -/
def Obligations.IdleBlockDoesNothing : Prop :=
  ∀ s : State, s.phase = .idle → s.host = [] → step s = .next s

/-- 20_memory.md R64, R66, R68: a host operation other than reset that falls before the commit changes nothing of the
block but OVR; so a command runs on its inputs as at acceptance, and no read sees a partly executed command. -/
def Obligations.HostCannotDisturbABusyCommand : Prop :=
  ∀ s t : State, s.phase = .busy → s.sequencerMoves = false → ¬ s.resetNext → step s = .next t →
    t = { s with ovr := t.ovr, host := t.host, reads := t.reads, hold := s.hold - 1 } ∧
    (s.ovr = true → (∀ v, s.host.head? ≠ some (.write (Config.blockBase + 0x008) 4 v)) → t.ovr = true)

/-! ## The register window -/

/-- 20_memory.md R62, 10_state.md R30 to R43: what a host read of each register returns; reading changes no state of the
block. -/
def Obligations.HostReadsReturnTheRegisters : Prop :=
  ∀ s : State,
    HostReadGives s 0x000 0x54534131 ∧ HostReadGives s 0x004 s.lastCmd ∧ HostReadGives s 0x008 s.statusWord ∧
    HostReadGives s 0x00C s.errInfo ∧ (∀ i : Fin 4, HostReadGives s (0x010 + 4 * i.val) s.args[i]) ∧
    HostReadGives s 0x020 s.nmax ∧ HostReadGives s 0x024 s.cache.hw ∧
    HostReadGives s 0x028 (BitVec.ofNat 32 s.cache.primes.length) ∧
    HostReadGives s 0x02C (BitVec.ofNat 32 Config.primeCapacity) ∧
    HostReadGives s 0x030 s.rng.a ∧ HostReadGives s 0x034 s.rng.b ∧ HostReadGives s 0x038 s.rng.c ∧
    HostReadGives s 0x03C s.rng.d ∧ HostReadGives s 0x040 s.seedLen ∧
    (∀ off, 0x044 ≤ off → off ≤ 0x07C → off % 4 = 0 → HostReadGives s off 0) ∧
    (∀ i : Fin 32, HostReadGives s (0x080 + 4 * i.val) s.res[i]) ∧
    (∀ j : Fin 64, HostReadGives s (0x100 + 4 * j.val) s.seedBuf[j])

/-- 10_state.md R32: the bits of STATUS. -/
def Obligations.StatusWordShowsItsFields : Prop :=
  ∀ s : State,
    s.statusWord.getLsbD 0 = decide (s.phase = .busy) ∧ s.statusWord.getLsbD 1 = s.done ∧
    s.statusWord.getLsbD 2 = s.err ∧ s.statusWord.getLsbD 3 = false ∧
    s.statusWord.toNat / 2 ^ 4 % 2 ^ 4 =
      (match s.errCode with
        | none => 0
        | some .invalidInput => 1
        | some .illegalCommand => 2
        | some .notSeeded => 3
        | some .cacheFull => 4) ∧
    s.statusWord.getLsbD 8 = s.ovr ∧ s.statusWord.getLsbD 9 = s.seeded ∧ s.statusWord.toNat / 2 ^ 10 = 0

/-- 20_memory.md R63 and 10_state.md R29: (a) an RW register written while IDLE takes all 32 bits; (b), (c) CMD: see
`CommandWriteIsAcceptedWhenIdle`, here its BUSY half; (c) an RW register written while BUSY keeps its value and OVR
becomes 1; (d) a STATUS write clears OVR when bit 8 is 1 and does nothing else, in either phase; (e) a write to an RO
register or a reserved offset changes nothing. -/
def Obligations.HostWritesActAsTheirAccessType : Prop :=
  ∀ (s : State) (v : Word),
    (s.phase = .idle →
      (∀ i : Fin 4, HostWriteGives s (0x010 + 4 * i.val) v { s with args := s.args.set i v }) ∧
      HostWriteGives s 0x020 v { s with nmax := v } ∧ HostWriteGives s 0x040 v { s with seedLen := v } ∧
      (∀ j : Fin 64, HostWriteGives s (0x100 + 4 * j.val) v { s with seedBuf := s.seedBuf.set j v })) ∧
    (s.phase = .busy →
      HostWriteGives s 0x004 v { s with ovr := true } ∧
      (∀ i : Fin 4, HostWriteGives s (0x010 + 4 * i.val) v { s with ovr := true }) ∧
      HostWriteGives s 0x020 v { s with ovr := true } ∧ HostWriteGives s 0x040 v { s with ovr := true } ∧
      (∀ j : Fin 64, HostWriteGives s (0x100 + 4 * j.val) v { s with ovr := true })) ∧
    HostWriteGives s 0x008 v { s with ovr := if v.getLsbD 8 then false else s.ovr } ∧
    (∀ off ∈ [0x000, 0x00C, 0x024, 0x028, 0x02C, 0x030, 0x034, 0x038, 0x03C], HostWriteGives s off v s) ∧
    (∀ off, 0x044 ≤ off → off ≤ 0x07C → off % 4 = 0 → HostWriteGives s off v s) ∧
    (∀ i : Fin 32, HostWriteGives s (0x080 + 4 * i.val) v s)

/-- 20_memory.md R61: an access of another width, or at an address that is not a multiple of 4, is the fault
BusFault(addr), in either phase; so it is never a value and never a partial write. -/
def Obligations.NarrowOrMisalignedAccessIsBusFault : Prop :=
  ∀ (s : State) (addr width : Nat) (v : Word) (rest : List HostOp), (width ≠ 4 ∨ addr % 4 ≠ 0) →
    (HostMoves s (.read addr width) rest → step s = .fault (.busFault addr)) ∧
    (HostMoves s (.write addr width v) rest → step s = .fault (.busFault addr))

/-- An access outside the 512 bytes of 20_memory.md R60 is the fault BusFault(addr) too. DEDUCED, the model's choice:
log entry 3. -/
def Obligations.AccessOutsideTheWindowIsBusFault : Prop :=
  ∀ (s : State) (addr width : Nat) (v : Word) (rest : List HostOp),
    (addr < Config.blockBase ∨ Config.blockBase + 0x200 ≤ addr) →
    (HostMoves s (.read addr width) rest → step s = .fault (.busFault addr)) ∧
    (HostMoves s (.write addr width v) rest → step s = .fault (.busFault addr))

/-- 30_encoding.md R87: `poll` repeats the read of STATUS until bit 0 reads 0. -/
def Obligations.PollRepeatsWhileBusy : Prop :=
  ∀ (s : State) (rest : List HostOp), HostMoves s .poll rest →
    (s.phase = .busy → step s = .next { s with reads := s.statusWord :: s.reads, hold := s.hold - 1 }) ∧
    (s.phase = .idle →
      step s = .next { s with host := rest, reads := s.statusWord :: s.reads, hold := s.hold - 1 })

/-- 70_reset_and_hazards.md R231: reset sets every state element to its reset value, in either phase; a command in
execution leaves no effect. The host's own fields and the latency counter are the model's (log entry 13). -/
def Obligations.ResetEventRestoresTheResetState : Prop :=
  ∀ (s : State) (rest : List HostOp), HostMoves s .reset rest →
    step s = .next { State.reset with host := rest, reads := s.reads, accepted := s.accepted }

/-- 70_reset_and_hazards.md R230: the reset value of every state element and register; NMAX has the instance's
NMAX_RESET, whose default is 0x3B9ACA00. -/
def Obligations.ResetValues : Prop :=
  State.reset.cache.primes = [2] ∧ State.reset.cache.hw = 2 ∧ State.reset.cache.count = 1 ∧
  State.reset.rng = { a := 0, b := 0, c := 0, d := 0 } ∧ State.reset.seeded = false ∧ State.reset.phase = .idle ∧
  State.reset.readReg .cmd = 0 ∧ State.reset.readReg .status = 0 ∧ State.reset.readReg .errInfo = 0 ∧
  (∀ i, State.reset.readReg (.arg i) = 0) ∧ State.reset.readReg .nmax = Config.nmaxReset ∧
  Config.nmaxResetDefault = 0x3B9ACA00 ∧
  State.reset.readReg .hw = 2 ∧ State.reset.readReg .pcount = 1 ∧
  (State.reset.readReg .pcap).toNat = Config.primeCapacity ∧
  State.reset.readReg .rngA = 0 ∧ State.reset.readReg .rngB = 0 ∧ State.reset.readReg .rngC = 0 ∧
  State.reset.readReg .rngD = 0 ∧ State.reset.readReg .seedLen = 0 ∧ (∀ i, State.reset.readReg (.res i) = 0) ∧
  (∀ j, State.reset.readReg (.seedBuf j) = 0) ∧ State.reset.readReg .id = 0x54534131

/-! ## Invariants of the whole machine -/

/-- 70_reset_and_hazards.md R232: the reset state satisfies the invariants. -/
def Obligations.ResetMeetsTheInvariant : Prop := State.reset.Inv

/-- 10_state.md R23: every step keeps the invariants, from every state that meets them. -/
def Obligations.EveryStepKeepsTheInvariant : Prop :=
  ∀ s t : State, s.Inv → step s = .next t → t.Inv

/-- 10_state.md R23 (e) and R37: the cache is the list of the primes up to `hw`, and PCOUNT is their number. -/
def Obligations.CacheHoldsExactlyThePrimesUpToHw : Prop :=
  ∀ (capacity : Nat) (c : Cache), c.Inv capacity →
    c = cacheUpTo c.hw.toNat ∧ c.count = Nat.primeCounting c.hw.toNat

/-- 40_prime_cache.md R104, 10_state.md R20: no step but CACHE_RESET and reset removes a cache entry or lowers `hw`, from
any state. -/
def Obligations.CacheOnlyGrows : Prop :=
  ∀ s t : State, ¬ s.resetNext → ¬ (s.sequencerMoves = true ∧ decode s.lastCmd = .ok .cacheReset) →
    step s = .next t → s.cache.primes.isPrefixOf t.cache.primes = true ∧ s.cache.hw ≤ t.cache.hw

/-- 10_state.md R33: ERRINFO is written only by an error commit (or by reset). -/
def Obligations.ErrInfoChangesOnlyAtAnErrorCommit : Prop :=
  ∀ s t : State, ¬ s.resetNext → step s = .next t → t.errInfo ≠ s.errInfo →
    s.sequencerMoves = true ∧ t.err = true ∧ t.done = true ∧ t.phase = .idle

/-- 20_memory.md R60, R61: a host whose accesses are all aligned 4-byte accesses of the window never stops the machine,
and no command does. -/
def Obligations.WellFormedHostNeverStops : Prop :=
  ∀ (s : State) (k : Nat), s.hostWf → ∃ t, Sys2Proof.core.run k s = .next t ∧ t.hostWf

/-- 30_encoding.md R93, 60_exceptions.md R201: every command ends in one commit, successful or not, from every state;
ERRINFO is kept by a successful one and all RES are 0 after an error. -/
def Obligations.EveryCommandEndsInACommit : Prop :=
  ∀ (i : Instr) (s : State), ∃ t, exec i s = .next t ∧ t.phase = .idle ∧ t.done = true ∧ t.hold = 0 ∧
    ((t.err = false ∧ t.errCode = none ∧ t.errInfo = s.errInfo) ∨
     (t.err = true ∧ t.errCode.isSome = true ∧ t.res = Vector.replicate 32 0 ∧
      t.rng = s.rng ∧ t.seeded = s.seeded ∧ (t.errCode ≠ some .cacheFull → t.cache = s.cache)))

/-- 10_state.md R31, R34, R35, R40, R42, R45; 42_prng.md R160: no command writes an ARG register, NMAX, SEED_LEN,
SEED_BUF, LASTCMD or OVR. -/
def Obligations.CommandsKeepTheHostsRegisters : Prop :=
  ∀ (i : Instr) (s t : State), exec i s = .next t →
    t.args = s.args ∧ t.nmax = s.nmax ∧ t.seedLen = s.seedLen ∧ t.seedBuf = s.seedBuf ∧ t.lastCmd = s.lastCmd ∧
    t.ovr = s.ovr ∧ t.host = s.host ∧ t.reads = s.reads ∧ t.accepted = s.accepted

/-- 10_state.md R20, R24, R25: the prime cache and factorizer commands leave A..D and SEEDED alone; CLASSIFY, PRIME_AT
and the PRNG commands leave the prime cache alone. -/
def Obligations.EnginesDoNotTouchEachOther : Prop :=
  ∀ (i : Instr) (s t : State), exec i s = .next t →
    (i ∈ [.cacheReset, .growTo, .isPrime, .classify, .primeAt, .factorize, .phi, .sigma, .aliquot] →
      t.rng = s.rng ∧ t.seeded = s.seeded) ∧
    (i ∈ [.classify, .primeAt, .seed, .rngLoad, .next32, .nextFloat, .nextBounded] → t.cache = s.cache)

/-- 70_reset_and_hazards.md R243, 10_state.md R45: every commit rewrites all of RES, and no command reads a RES
register. -/
def Obligations.NoCommandReadsTheResults : Prop :=
  ∀ (i : Instr) (s : State) (r : Vector Word 32), exec i { s with res := r } = exec i s

/-- 30_encoding.md R82, R84: a command ignores the ARG registers it does not list. -/
def Obligations.UnlistedArgumentsAreIgnored : Prop :=
  ∀ (i : Instr) (j : Fin 4) (s t : State) (v : Word),
    (i ∈ [.cacheReset, .seed, .next32, .nextFloat] ∨ (i ≠ .rngLoad ∧ j ≠ 0)) →
    exec i s = .next t → exec i { s with args := s.args.set j v } = .next { t with args := s.args.set j v }

/-- 10_state.md R26: the seed is not retained: no command but SEED depends on the seed buffer or its length. -/
def Obligations.OnlySeedReadsTheSeedBuffer : Prop :=
  ∀ (i : Instr) (s t : State) (buf : Vector Word 64) (len : Word), i ≠ .seed → exec i s = .next t →
    exec i { s with seedBuf := buf, seedLen := len } = .next { t with seedBuf := buf, seedLen := len }

/-! ## Input checks -/

/-- 60_exceptions.md R202, R203: each command's InvalidInput and NotSeeded checks, InvalidInput first, with the whole
state the error leaves; CACHE_RESET, CLASSIFY and RNG_LOAD report no error. -/
def Obligations.InputChecksRaiseTheirErrors : Prop :=
  ∀ s : State,
    (∀ i ∈ [Instr.growTo, .isPrime], s.nmax < s.args[0] →
      exec i s = .next (afterError s .invalidInput s.args[0] s.cache)) ∧
    (∀ i ∈ [Instr.factorize, .phi, .sigma, .aliquot, .nextBounded], (s.args[0] = 0 ∨ s.nmax < s.args[0]) →
      exec i s = .next (afterError s .invalidInput s.args[0] s.cache)) ∧
    (s.cache.primes.length ≤ s.args[0].toNat →
      exec .primeAt s = .next (afterError s .invalidInput s.args[0] s.cache)) ∧
    (256 < s.seedLen.toNat → exec .seed s = .next (afterError s .invalidInput s.seedLen s.cache)) ∧
    (s.seeded = false →
      exec .next32 s = .next (afterError s .notSeeded 0 s.cache) ∧
      exec .nextFloat s = .next (afterError s .notSeeded 0 s.cache) ∧
      (s.args[0] ≠ 0 → s.args[0] ≤ s.nmax → exec .nextBounded s = .next (afterError s .notSeeded 0 s.cache))) ∧
    (∀ i ∈ [Instr.cacheReset, .classify, .rngLoad], ∃ t, exec i s = .next t ∧ t.err = false)

/-! ## Prime cache commands -/

/-- 40_prime_cache.md R110: CACHE_RESET. -/
def Obligations.CacheResetRestoresTheInitialCache : Prop :=
  ∀ s : State, exec .cacheReset s = .next (afterCommit s [] { primes := [2], hw := 2 } s.rng s.seeded)

/-- 40_prime_cache.md R101, R111: GROW_TO n, when the cache memory can hold the primes up to `n`: every integer up to
`n` is then classified, the cache is exactly the primes up to the new `hw`. -/
def Obligations.GrowToClassifiesEveryIntegerUpToN : Prop :=
  ∀ s : State, s.cache.Inv Config.primeCapacity → s.args[0] ≤ s.nmax →
    Nat.primeCounting s.args[0].toNat ≤ Config.primeCapacity →
    exec .growTo s = .next
      (afterCommit s [] (cacheUpTo (max s.cache.hw.toNat s.args[0].toNat)) s.rng s.seeded)

/-- 40_prime_cache.md R101, 60_exceptions.md R201: when the primes up to `n` do not fit, GROW_TO raises CacheFull(k) at
the first prime `k` that does not, and keeps the growth up to `hw = k - 1`. Stated for a block of any capacity, of which
`exec` runs the one with PRIME_CAPACITY. -/
def Obligations.GrowToKeepsTheGrowthWhenTheCacheIsFull : Prop :=
  (∀ s : State, exec .growTo s = .next (growToCommand Config.primeCapacity s)) ∧
  ∀ (capacity : Nat) (s : State), s.cache.Inv capacity → s.args[0] ≤ s.nmax →
    capacity < Nat.primeCounting s.args[0].toNat →
    growToCommand capacity s =
      afterError s .cacheFull (BitVec.ofNat 32 (Nat.nth Nat.Prime capacity))
        (cacheUpTo (Nat.nth Nat.Prime capacity - 1))

/-- 40_prime_cache.md R104: calling `growTo(n)` then `growTo(m)` with `m ≤ n` leaves the cache unchanged from after the
first call, from any state. -/
def Obligations.GrowToIsIdempotent : Prop :=
  ∀ (s t : State) (m : Word), exec .growTo s = .next t → t.err = false → m ≤ s.args[0] →
    exec .growTo { t with args := t.args.set 0 m } =
      .next (afterCommit { t with args := t.args.set 0 m } [] t.cache t.rng t.seeded)

/-- 40_prime_cache.md R102, R103, R112: IS_PRIME answers primality for every `n ≤ NMAX`, grows the cache to
`max(hw, ceil_sqrt(n))` and never raises CacheFull. -/
def Obligations.IsPrimeAnswersPrimality : Prop :=
  ∀ s : State, s.cache.Inv Config.primeCapacity → s.args[0] ≤ s.nmax →
    exec .isPrime s = .next
      (afterCommit s [if s.args[0].toNat.Prime then 1 else 0]
        (cacheUpTo (max s.cache.hw.toNat (ceilSqrt s.args[0].toNat))) s.rng s.seeded)

/-- 40_prime_cache.md R113: CLASSIFY k, from any state by the cache's entries. -/
def Obligations.ClassifyReadsTheCache : Prop :=
  ∀ s : State, exec .classify s = .next
    (afterCommit s [if s.cache.hw < s.args[0] then 0 else if s.args[0] ∈ s.cache.primes then 1 else 2]
      s.cache s.rng s.seeded)

/-- 40_prime_cache.md R113 with 10_state.md R23 (d): class 1 is exactly "classified and prime", class 2 exactly
"classified and not prime". -/
def Obligations.ClassifyTellsPrimesFromNonPrimes : Prop :=
  ∀ (s : State) (capacity : Nat), s.cache.Inv capacity →
    exec .classify s = .next
      (afterCommit s [if s.cache.hw < s.args[0] then 0 else if s.args[0].toNat.Prime then 1 else 2]
        s.cache s.rng s.seeded)

/-- 40_prime_cache.md R114, 10_state.md R23: PRIME_AT i with `i < pcount` gives entry `i`, which is the i-th prime
counted from 0. -/
def Obligations.PrimeAtGivesTheIthPrime : Prop :=
  ∀ (s : State) (capacity : Nat), s.cache.Inv capacity → ∀ h : s.args[0].toNat < s.cache.primes.length,
    exec .primeAt s = .next (afterCommit s [s.cache.primes[s.args[0].toNat]] s.cache s.rng s.seeded) ∧
    s.cache.primes[s.args[0].toNat].toNat = Nat.nth Nat.Prime s.args[0].toNat

/-! ## Factorizer commands -/

/-- 41_factorizer.md R130, R131, R135: FACTORIZE n gives the number of distinct primes of `n` and, in ascending order,
each with its exponent; the cache grows to `max(hw, ceil_sqrt(n))`. -/
def Obligations.FactorizeGivesThePrimeFactorization : Prop :=
  ∀ s : State, s.cache.Inv Config.primeCapacity → s.args[0] ≠ 0 → s.args[0] ≤ s.nmax →
    exec .factorize s = .next
      (afterCommit s
        (BitVec.ofNat 32 (primeDivisors s.args[0].toNat).length ::
          (primeDivisors s.args[0].toNat).flatMap fun p =>
            [BitVec.ofNat 32 p, BitVec.ofNat 32 (s.args[0].toNat.factorization p)])
        (cacheUpTo (max s.cache.hw.toNat (ceilSqrt s.args[0].toNat))) s.rng s.seeded)

/-- 41_factorizer.md R131 (d), (e), of what FACTORIZE delivers: RES0 is at most 9, every exponent register is from 1 to 31,
and every RES register past the last pair, RES19 to RES31 always, is 0. -/
def Obligations.FactorizationFitsTheResultRegisters : Prop :=
  ∀ s : State, s.cache.Inv Config.primeCapacity → s.args[0] ≠ 0 → s.args[0] ≤ s.nmax →
    ∃ t, exec .factorize s = .next t ∧ t.err = false ∧ t.res[0].toNat ≤ 9 ∧
      (∀ j : Fin 9, j.val < t.res[0].toNat →
        1 ≤ (t.res[2 * j.val + 2]).toNat ∧ (t.res[2 * j.val + 2]).toNat ≤ 31) ∧
      (∀ i : Fin 32, 2 * t.res[0].toNat < i.val → t.res[i] = 0) ∧ (∀ i : Fin 32, 19 ≤ i.val → t.res[i] = 0)

/-- 41_factorizer.md R132, R136: PHI n gives Euler's totient. -/
def Obligations.PhiGivesTheTotient : Prop :=
  ∀ s : State, s.cache.Inv Config.primeCapacity → s.args[0] ≠ 0 → s.args[0] ≤ s.nmax →
    exec .phi s = .next
      (afterCommit s [BitVec.ofNat 32 (Nat.totient s.args[0].toNat)]
        (cacheUpTo (max s.cache.hw.toNat (ceilSqrt s.args[0].toNat))) s.rng s.seeded)

/-- 41_factorizer.md R133, R137: SIGMA n gives the sum of the divisors of `n` in two registers, and the sum is below
2^37. -/
def Obligations.SigmaGivesTheDivisorSum : Prop :=
  ∀ s : State, s.cache.Inv Config.primeCapacity → s.args[0] ≠ 0 → s.args[0] ≤ s.nmax →
    ∃ sum : Nat, sum = ∑ d ∈ s.args[0].toNat.divisors, d ∧ sum < 2 ^ 37 ∧
      exec .sigma s = .next
        (afterCommit s [BitVec.ofNat 32 (sum % 2 ^ 32), BitVec.ofNat 32 (sum / 2 ^ 32)]
          (cacheUpTo (max s.cache.hw.toNat (ceilSqrt s.args[0].toNat))) s.rng s.seeded)

/-- 41_factorizer.md R134, R138: ALIQUOT n gives the sum of the divisors of `n` without `n`, below 2^37. -/
def Obligations.AliquotGivesTheProperDivisorSum : Prop :=
  ∀ s : State, s.cache.Inv Config.primeCapacity → s.args[0] ≠ 0 → s.args[0] ≤ s.nmax →
    ∃ sum : Nat, sum = ∑ d ∈ s.args[0].toNat.properDivisors, d ∧ sum < 2 ^ 37 ∧
      exec .aliquot s = .next
        (afterCommit s [BitVec.ofNat 32 (sum % 2 ^ 32), BitVec.ofNat 32 (sum / 2 ^ 32)]
          (cacheUpTo (max s.cache.hw.toNat (ceilSqrt s.args[0].toNat))) s.rng s.seeded)

/-! ## PRNG commands -/

/-- 42_prng.md R151: the padded message is `M ‖ 0x80 ‖ 0x00^z ‖ len64` with the least `z` for which
`(L + 1 + z) mod 64 = 56`, and has `64 * N` bytes, `N = (L + 8) div 64 + 1`; `N ≤ 5` for `L ≤ 256`. -/
def Obligations.DigestPaddingIsLeast : Prop :=
  ∀ m : List Byte, m.length ≤ 256 →
    ∃ z : Nat, padMessage m = m ++ [0x80#8] ++ List.replicate z 0#8 ++
        (List.range 8).map (fun i => BitVec.ofNat 8 (8 * m.length / 256 ^ (7 - i))) ∧
      (m.length + 1 + z) % 64 = 56 ∧ (∀ y, (m.length + 1 + y) % 64 = 56 → z ≤ y) ∧
      (padMessage m).length = 64 * ((m.length + 8) / 64 + 1) ∧ (m.length + 8) / 64 + 1 ≤ 5

/-- 42_prng.md R153: the message schedule of a block of sixteen words. -/
def Obligations.DigestScheduleRecurrence : Prop :=
  ∀ block : List Word, block.length = 16 →
    (messageSchedule block).length = 80 ∧
    (∀ t, t < 16 → (messageSchedule block).getD t 0 = block.getD t 0) ∧
    ∀ t, 16 ≤ t → t < 80 →
      (messageSchedule block).getD t 0 =
        rotl32 ((messageSchedule block).getD (t - 3) 0 ^^^ (messageSchedule block).getD (t - 8) 0 ^^^
          (messageSchedule block).getD (t - 14) 0 ^^^ (messageSchedule block).getD (t - 16) 0) 1

/-- 42_prng.md R154, R155: one round of the compression, the new `a` as `wrap32` of the exact sum. -/
def Obligations.DigestRoundRecurrence : Prop :=
  ∀ (t : Nat) (w : Word) (v : DigestWords), t < 80 →
    ∃ f k : Nat,
      f = (if t < 20 then (v.h1 &&& v.h2) ||| (~~~v.h1 &&& v.h3)
        else if 40 ≤ t ∧ t < 60 then (v.h1 &&& v.h2) ||| (v.h1 &&& v.h3) ||| (v.h2 &&& v.h3)
        else v.h1 ^^^ v.h2 ^^^ v.h3 : Word).toNat ∧
      k = (if t < 20 then 0x5A827999 else if t < 40 then 0x6ED9EBA1 else if t < 60 then 0x8F1BBCDC
        else 0xCA62C1D6) ∧
      (digestRound t w v).h0.toNat = ((rotl32 v.h0 5).toNat + f + v.h4.toNat + k + w.toNat) % 2 ^ 32 ∧
      (digestRound t w v).h1 = v.h0 ∧ (digestRound t w v).h2 = rotl32 v.h1 30 ∧
      (digestRound t w v).h3 = v.h2 ∧ (digestRound t w v).h4 = v.h3

/-- 42_prng.md R152, R156: the reference digests of "abc" and of the empty string. -/
def Obligations.ReferenceDigests : Prop :=
  digest160 [0x61, 0x62, 0x63] =
    { h0 := 0xA9993E36, h1 := 0x4706816A, h2 := 0xBA3E2571, h3 := 0x7850C26C, h4 := 0x9CD0D89D } ∧
  digest160 [] =
    { h0 := 0xDA39A3EE, h1 := 0x5E6B4B0D, h2 := 0x3255BFEF, h3 := 0x95601890, h4 := 0xAFD80709 }

/-- 42_prng.md R157, R160, 20_memory.md R69: SEED with `L ≤ 256` loads the first four words of the digest of the first
`L` bytes of the seed buffer, packed little-endian, and reports all five. -/
def Obligations.SeedLoadsTheDigestOfTheSeedBytes : Prop :=
  ∀ s : State, s.seedLen.toNat ≤ 256 →
    ∃ (bytes : List Byte) (h : DigestWords), bytes.length = s.seedLen.toNat ∧
      (∀ (j : Nat) (hj : j / 4 < 64), j < s.seedLen.toNat →
        (bytes.getD j 0).toNat = s.seedBuf[j / 4].toNat / 2 ^ (8 * (j % 4)) % 2 ^ 8) ∧
      h = digest160 bytes ∧
      exec .seed s = .next (afterCommit s [h.h0, h.h1, h.h2, h.h3, h.h4] s.cache
        { a := h.h0, b := h.h1, c := h.h2, d := h.h3 } true)

/-- 42_prng.md R161: RNG_LOAD. -/
def Obligations.RngLoadLoadsTheArguments : Prop :=
  ∀ s : State, exec .rngLoad s = .next
    (afterCommit s [] s.cache { a := s.args[0], b := s.args[1], c := s.args[2], d := s.args[3] } true)

/-- 42_prng.md R158, with 00_scope.md R8 and R9: the generator recurrence, in exact integers and `wrap32`; the draw is
the new D. -/
def Obligations.GeneratorStepRecurrence : Prop :=
  ∀ g : Rng, ∃ t rot27 rot17 : Nat,
    rot27 = ((g.b.toNat <<< 27) ||| (g.b.toNat >>> 5)) % 2 ^ 32 ∧
    rot17 = ((g.c.toNat <<< 17) ||| (g.c.toNat >>> 15)) % 2 ^ 32 ∧
    (t : Int) = ((g.a.toNat : Int) - (rot27 : Int)) % 2 ^ 32 ∧
    g.step.a.toNat = g.b.toNat ^^^ rot17 ∧
    g.step.b.toNat = (g.c.toNat + g.d.toNat) % 2 ^ 32 ∧
    g.step.c.toNat = (g.d.toNat + t) % 2 ^ 32 ∧
    g.step.d.toNat = (g.step.a.toNat + t) % 2 ^ 32 ∧
    g.step.draw = g.step.d

/-- 42_prng.md R166: the all-zero state is a fixed point of Step, and its draws are 0. -/
def Obligations.ZeroStateIsAFixedPoint : Prop :=
  Rng.zero.step = Rng.zero ∧ Rng.zero.step.draw = 0

/-- 42_prng.md R162: NEXT32 takes one step and gives its draw; unseeded it raises NotSeeded(0) and takes none. -/
def Obligations.Next32GivesOneDraw : Prop :=
  ∀ s : State,
    (s.seeded = true → exec .next32 s = .next (afterCommit s [s.rng.step.draw] s.cache s.rng.step true)) ∧
    (s.seeded = false → exec .next32 s = .next (afterError s .notSeeded 0 s.cache))

/-- 42_prng.md R163, 20_memory.md R70: NEXT_FLOAT takes two steps, the first draw is `small` and the second `large`. -/
def Obligations.NextFloatCombinesTwoDraws : Prop :=
  ∀ s : State, s.seeded = true →
    ∃ (small large : Word) (f : DWord),
      small = s.rng.step.draw ∧ large = s.rng.step.step.draw ∧ f = toFloat small large ∧
      exec .nextFloat s = .next
        (afterCommit s [BitVec.ofNat 32 (f.toNat % 2 ^ 32), BitVec.ofNat 32 (f.toNat / 2 ^ 32), small, large]
          s.cache s.rng.step.step true)

/-- 42_prng.md R159, 00_scope.md R11: ToFloat is the binary64 value nearest to `{large, small} / 2^64`, a tie going to
the encoding with an even least significant bit. -/
def Obligations.ToFloatRoundsToNearestEven : Prop :=
  ∀ small large : Word, ∃ x : ℚ, x = (large.toNat * 2 ^ 32 + small.toNat : ℕ) / (2 : ℚ) ^ 64 ∧
    isFiniteNonneg (toFloat small large) ∧
    ∀ g : DWord, isFiniteNonneg g →
      |binary64Value (toFloat small large) - x| ≤ |binary64Value g - x| ∧
      (|binary64Value g - x| = |binary64Value (toFloat small large) - x| → g ≠ toFloat small large →
        (toFloat small large).getLsbD 0 = false)

/-- 42_prng.md R159, R163: the float is 0.0 only for two zero draws, is 1.0 exactly in the corner `large = 0xFFFFFFFF`,
`small ≥ 0xFFFFFC00`, and is exact whenever `{large, small} < 2^53`. -/
def Obligations.ToFloatCorners : Prop :=
  ∀ small large : Word,
    (toFloat small large = 0 ↔ small = 0 ∧ large = 0) ∧
    (toFloat small large = 0x3FF0000000000000 ↔ large = 0xFFFFFFFF ∧ 0xFFFFFC00 ≤ small) ∧
    (large.toNat * 2 ^ 32 + small.toNat < 2 ^ 53 →
      binary64Value (toFloat small large) = (large.toNat * 2 ^ 32 + small.toNat : ℕ) / (2 : ℚ) ^ 64)

/-- 42_prng.md R164 (and R167): NEXT_BOUNDED takes one step and gives the floor of `v * max / 2^32`, which is below
`max`; before that it raises InvalidInput(max), or else NotSeeded(0), and takes no step. -/
def Obligations.NextBoundedScalesOneDraw : Prop :=
  ∀ s : State,
    ((s.args[0] = 0 ∨ s.nmax < s.args[0]) →
      exec .nextBounded s = .next (afterError s .invalidInput s.args[0] s.cache)) ∧
    (s.args[0] ≠ 0 → s.args[0] ≤ s.nmax → s.seeded = false →
      exec .nextBounded s = .next (afterError s .notSeeded 0 s.cache)) ∧
    (s.args[0] ≠ 0 → s.args[0] ≤ s.nmax → s.seeded = true →
      ∃ r : Nat, r = s.rng.step.draw.toNat * s.args[0].toNat / 2 ^ 32 ∧ r < s.args[0].toNat ∧
        exec .nextBounded s = .next (afterCommit s [BitVec.ofNat 32 r] s.cache s.rng.step true))

/-- 42_prng.md R165, first part: two SEED commands with equal SEED_LEN and equal first SEED_LEN bytes reach equal A..D
and results. -/
def Obligations.EqualSeedsGiveEqualGenerators : Prop :=
  ∀ s t s' t' : State, s.seedLen = t.seedLen →
    (∀ j, j < s.seedLen.toNat → seedByte s.seedBuf j = seedByte t.seedBuf j) → s.seedLen.toNat ≤ 256 →
    exec .seed s = .next s' → exec .seed t = .next t' →
    s'.rng = t'.rng ∧ s'.res = t'.res ∧ s'.seeded = true ∧ t'.seeded = true

/-- 42_prng.md R165, second part: the same sequence of draw commands returns equal results from equal A..D, whatever the
rest of the state (the prime cache included). -/
def Obligations.DrawsDependOnlyOnTheGenerator : Prop :=
  ∀ (draws : List Instr) (s t : State), (∀ i ∈ draws, i ∈ [Instr.next32, .nextFloat, .nextBounded]) →
    s.rng = t.rng → s.seeded = t.seeded → s.args[0] = t.args[0] → s.nmax = t.nmax →
    drawResults draws s = drawResults draws t

/-! ## The host program's assembler -/

/-- 30_encoding.md R88, R89, 20_memory.md R69: from an IDLE block, the host operations of `SEED "s"` come to a BUSY
block with command SEED whose seed bytes are exactly the bytes of the literal, with the poll still to do. -/
def Obligations.SeedLiteralReachesTheSeedBuffer : Prop :=
  ∀ (s : State) (bytes : List Byte) (rest : List HostOp), s.phase = .idle → s.hold = 0 → bytes.length ≤ 256 →
    s.host = (Stmt.seed bytes).expand ++ rest →
    ∃ (k : Nat) (t : State), Sys2Proof.core.run k s = .next t ∧ t.phase = .busy ∧
      decode t.lastCmd = .ok .seed ∧ t.seedLen.toNat = bytes.length ∧ t.seedBytes = bytes ∧ t.host = .poll :: rest

/-- 30_encoding.md R87, R88: every host operation of a well-formed statement is a poll or a 4-byte access at an aligned
address of the window, and no statement asserts reset. -/
def Obligations.StatementsExpandToWellFormedAccesses : Prop :=
  ∀ stmt : Stmt, WellFormed.stmt stmt = true → ∀ op ∈ stmt.expand,
    WellFormed.hostOp Config.blockBase op = true ∧ op ≠ .reset
end

