-- ==== Sys2Proof/Laws/Config.lean ====
section
/-! SUPPORT. The bounds the spec puts on the OPEN parameters (00_scope.md R6). -/

namespace Sys2Proof.Config

/-- PRIME_CAPACITY is at least 6542 (00_scope.md R6). -/
theorem least_le_primeCapacity : 6542 ≤ primeCapacity := by
  unfold primeCapacity; omega

/-- PRIME_CAPACITY fits a 32-bit register (00_scope.md R6, 10_state.md R38). -/
theorem primeCapacity_lt : primeCapacity < 2 ^ 32 :=
  Nat.lt_of_lt_of_le (Nat.add_lt_add_right capacityAboveLeast.isLt 6542) (by decide)

/-- BLOCK_BASE is a multiple of 512 (20_memory.md R60). -/
theorem blockBase_mod_windowBytes : blockBase % windowBytes = 0 := by
  simp [blockBase, windowBytes]

/-- BLOCK_BASE is a multiple of 4, so an access is aligned exactly when its offset is. -/
theorem blockBase_mod_four : blockBase % 4 = 0 := by
  unfold blockBase; omega

end Sys2Proof.Config
end

