-- ==== Sys2Proof/Laws/State.lean ====
section
/-! SUPPORT. One lemma per field per shared update of State, each true by rfl, so that no later proof unfolds a record
update. -/

namespace Sys2Proof.Machine

/-! ## commit: the successful commit (30_encoding.md R93) -/

@[simp] theorem commit_cache (result : List Word) (s : State) :
    (commit result s).cache = s.cache := rfl
@[simp] theorem commit_rng (result : List Word) (s : State) :
    (commit result s).rng = s.rng := rfl
@[simp] theorem commit_seeded (result : List Word) (s : State) :
    (commit result s).seeded = s.seeded := rfl
@[simp] theorem commit_phase (result : List Word) (s : State) :
    (commit result s).phase = .idle := rfl
@[simp] theorem commit_lastCmd (result : List Word) (s : State) :
    (commit result s).lastCmd = s.lastCmd := rfl
@[simp] theorem commit_done (result : List Word) (s : State) :
    (commit result s).done = true := rfl
@[simp] theorem commit_err (result : List Word) (s : State) :
    (commit result s).err = false := rfl
@[simp] theorem commit_errCode (result : List Word) (s : State) :
    (commit result s).errCode = none := rfl
@[simp] theorem commit_ovr (result : List Word) (s : State) :
    (commit result s).ovr = s.ovr := rfl
@[simp] theorem commit_errInfo (result : List Word) (s : State) :
    (commit result s).errInfo = s.errInfo := rfl
@[simp] theorem commit_args (result : List Word) (s : State) :
    (commit result s).args = s.args := rfl
@[simp] theorem commit_nmax (result : List Word) (s : State) :
    (commit result s).nmax = s.nmax := rfl
@[simp] theorem commit_seedLen (result : List Word) (s : State) :
    (commit result s).seedLen = s.seedLen := rfl
@[simp] theorem commit_res (result : List Word) (s : State) :
    (commit result s).res = resultRegs result := rfl
@[simp] theorem commit_seedBuf (result : List Word) (s : State) :
    (commit result s).seedBuf = s.seedBuf := rfl
@[simp] theorem commit_host (result : List Word) (s : State) :
    (commit result s).host = s.host := rfl
@[simp] theorem commit_reads (result : List Word) (s : State) :
    (commit result s).reads = s.reads := rfl
@[simp] theorem commit_hold (result : List Word) (s : State) :
    (commit result s).hold = 0 := rfl
@[simp] theorem commit_accepted (result : List Word) (s : State) :
    (commit result s).accepted = s.accepted := rfl

/-! ## raiseError: the error commit (60_exceptions.md R201) -/

@[simp] theorem raiseError_cache (e : ErrKind) (info : Word) (s : State) :
    (raiseError e info s).cache = s.cache := rfl
@[simp] theorem raiseError_rng (e : ErrKind) (info : Word) (s : State) :
    (raiseError e info s).rng = s.rng := rfl
@[simp] theorem raiseError_seeded (e : ErrKind) (info : Word) (s : State) :
    (raiseError e info s).seeded = s.seeded := rfl
@[simp] theorem raiseError_phase (e : ErrKind) (info : Word) (s : State) :
    (raiseError e info s).phase = .idle := rfl
@[simp] theorem raiseError_lastCmd (e : ErrKind) (info : Word) (s : State) :
    (raiseError e info s).lastCmd = s.lastCmd := rfl
@[simp] theorem raiseError_done (e : ErrKind) (info : Word) (s : State) :
    (raiseError e info s).done = true := rfl
@[simp] theorem raiseError_err (e : ErrKind) (info : Word) (s : State) :
    (raiseError e info s).err = true := rfl
@[simp] theorem raiseError_errCode (e : ErrKind) (info : Word) (s : State) :
    (raiseError e info s).errCode = some e := rfl
@[simp] theorem raiseError_ovr (e : ErrKind) (info : Word) (s : State) :
    (raiseError e info s).ovr = s.ovr := rfl
@[simp] theorem raiseError_errInfo (e : ErrKind) (info : Word) (s : State) :
    (raiseError e info s).errInfo = info := rfl
@[simp] theorem raiseError_args (e : ErrKind) (info : Word) (s : State) :
    (raiseError e info s).args = s.args := rfl
@[simp] theorem raiseError_nmax (e : ErrKind) (info : Word) (s : State) :
    (raiseError e info s).nmax = s.nmax := rfl
@[simp] theorem raiseError_seedLen (e : ErrKind) (info : Word) (s : State) :
    (raiseError e info s).seedLen = s.seedLen := rfl
@[simp] theorem raiseError_res (e : ErrKind) (info : Word) (s : State) :
    (raiseError e info s).res = Vector.replicate 32 0 := rfl
@[simp] theorem raiseError_seedBuf (e : ErrKind) (info : Word) (s : State) :
    (raiseError e info s).seedBuf = s.seedBuf := rfl
@[simp] theorem raiseError_host (e : ErrKind) (info : Word) (s : State) :
    (raiseError e info s).host = s.host := rfl
@[simp] theorem raiseError_reads (e : ErrKind) (info : Word) (s : State) :
    (raiseError e info s).reads = s.reads := rfl
@[simp] theorem raiseError_hold (e : ErrKind) (info : Word) (s : State) :
    (raiseError e info s).hold = 0 := rfl
@[simp] theorem raiseError_accepted (e : ErrKind) (info : Word) (s : State) :
    (raiseError e info s).accepted = s.accepted := rfl

/-! ## acceptCommand: acceptance (30_encoding.md R90) -/

@[simp] theorem acceptCommand_cache (delay : Nat) (w : Word) (s : State) :
    (acceptCommand delay w s).cache = s.cache := rfl
@[simp] theorem acceptCommand_rng (delay : Nat) (w : Word) (s : State) :
    (acceptCommand delay w s).rng = s.rng := rfl
@[simp] theorem acceptCommand_seeded (delay : Nat) (w : Word) (s : State) :
    (acceptCommand delay w s).seeded = s.seeded := rfl
@[simp] theorem acceptCommand_phase (delay : Nat) (w : Word) (s : State) :
    (acceptCommand delay w s).phase = .busy := rfl
@[simp] theorem acceptCommand_lastCmd (delay : Nat) (w : Word) (s : State) :
    (acceptCommand delay w s).lastCmd = w := rfl
@[simp] theorem acceptCommand_done (delay : Nat) (w : Word) (s : State) :
    (acceptCommand delay w s).done = false := rfl
@[simp] theorem acceptCommand_err (delay : Nat) (w : Word) (s : State) :
    (acceptCommand delay w s).err = false := rfl
@[simp] theorem acceptCommand_errCode (delay : Nat) (w : Word) (s : State) :
    (acceptCommand delay w s).errCode = none := rfl
@[simp] theorem acceptCommand_ovr (delay : Nat) (w : Word) (s : State) :
    (acceptCommand delay w s).ovr = s.ovr := rfl
@[simp] theorem acceptCommand_errInfo (delay : Nat) (w : Word) (s : State) :
    (acceptCommand delay w s).errInfo = s.errInfo := rfl
@[simp] theorem acceptCommand_args (delay : Nat) (w : Word) (s : State) :
    (acceptCommand delay w s).args = s.args := rfl
@[simp] theorem acceptCommand_nmax (delay : Nat) (w : Word) (s : State) :
    (acceptCommand delay w s).nmax = s.nmax := rfl
@[simp] theorem acceptCommand_seedLen (delay : Nat) (w : Word) (s : State) :
    (acceptCommand delay w s).seedLen = s.seedLen := rfl
@[simp] theorem acceptCommand_res (delay : Nat) (w : Word) (s : State) :
    (acceptCommand delay w s).res = s.res := rfl
@[simp] theorem acceptCommand_seedBuf (delay : Nat) (w : Word) (s : State) :
    (acceptCommand delay w s).seedBuf = s.seedBuf := rfl
@[simp] theorem acceptCommand_host (delay : Nat) (w : Word) (s : State) :
    (acceptCommand delay w s).host = s.host := rfl
@[simp] theorem acceptCommand_reads (delay : Nat) (w : Word) (s : State) :
    (acceptCommand delay w s).reads = s.reads := rfl
@[simp] theorem acceptCommand_hold (delay : Nat) (w : Word) (s : State) :
    (acceptCommand delay w s).hold = delay := rfl
@[simp] theorem acceptCommand_accepted (delay : Nat) (w : Word) (s : State) :
    (acceptCommand delay w s).accepted = s.accepted + 1 := rfl

/-! ## hostDone: the host's oldest operation done -/

@[simp] theorem State.hostDone_cache (s : State) :
    (s.hostDone).cache = s.cache := rfl
@[simp] theorem State.hostDone_rng (s : State) :
    (s.hostDone).rng = s.rng := rfl
@[simp] theorem State.hostDone_seeded (s : State) :
    (s.hostDone).seeded = s.seeded := rfl
@[simp] theorem State.hostDone_phase (s : State) :
    (s.hostDone).phase = s.phase := rfl
@[simp] theorem State.hostDone_lastCmd (s : State) :
    (s.hostDone).lastCmd = s.lastCmd := rfl
@[simp] theorem State.hostDone_done (s : State) :
    (s.hostDone).done = s.done := rfl
@[simp] theorem State.hostDone_err (s : State) :
    (s.hostDone).err = s.err := rfl
@[simp] theorem State.hostDone_errCode (s : State) :
    (s.hostDone).errCode = s.errCode := rfl
@[simp] theorem State.hostDone_ovr (s : State) :
    (s.hostDone).ovr = s.ovr := rfl
@[simp] theorem State.hostDone_errInfo (s : State) :
    (s.hostDone).errInfo = s.errInfo := rfl
@[simp] theorem State.hostDone_args (s : State) :
    (s.hostDone).args = s.args := rfl
@[simp] theorem State.hostDone_nmax (s : State) :
    (s.hostDone).nmax = s.nmax := rfl
@[simp] theorem State.hostDone_seedLen (s : State) :
    (s.hostDone).seedLen = s.seedLen := rfl
@[simp] theorem State.hostDone_res (s : State) :
    (s.hostDone).res = s.res := rfl
@[simp] theorem State.hostDone_seedBuf (s : State) :
    (s.hostDone).seedBuf = s.seedBuf := rfl
@[simp] theorem State.hostDone_host (s : State) :
    (s.hostDone).host = s.host.tail := rfl
@[simp] theorem State.hostDone_reads (s : State) :
    (s.hostDone).reads = s.reads := rfl
@[simp] theorem State.hostDone_hold (s : State) :
    (s.hostDone).hold = s.hold - 1 := rfl
@[simp] theorem State.hostDone_accepted (s : State) :
    (s.hostDone).accepted = s.accepted := rfl

/-! ## logRead: a value read by the host -/

@[simp] theorem State.logRead_cache (v : Word) (s : State) :
    (s.logRead v).cache = s.cache := rfl
@[simp] theorem State.logRead_rng (v : Word) (s : State) :
    (s.logRead v).rng = s.rng := rfl
@[simp] theorem State.logRead_seeded (v : Word) (s : State) :
    (s.logRead v).seeded = s.seeded := rfl
@[simp] theorem State.logRead_phase (v : Word) (s : State) :
    (s.logRead v).phase = s.phase := rfl
@[simp] theorem State.logRead_lastCmd (v : Word) (s : State) :
    (s.logRead v).lastCmd = s.lastCmd := rfl
@[simp] theorem State.logRead_done (v : Word) (s : State) :
    (s.logRead v).done = s.done := rfl
@[simp] theorem State.logRead_err (v : Word) (s : State) :
    (s.logRead v).err = s.err := rfl
@[simp] theorem State.logRead_errCode (v : Word) (s : State) :
    (s.logRead v).errCode = s.errCode := rfl
@[simp] theorem State.logRead_ovr (v : Word) (s : State) :
    (s.logRead v).ovr = s.ovr := rfl
@[simp] theorem State.logRead_errInfo (v : Word) (s : State) :
    (s.logRead v).errInfo = s.errInfo := rfl
@[simp] theorem State.logRead_args (v : Word) (s : State) :
    (s.logRead v).args = s.args := rfl
@[simp] theorem State.logRead_nmax (v : Word) (s : State) :
    (s.logRead v).nmax = s.nmax := rfl
@[simp] theorem State.logRead_seedLen (v : Word) (s : State) :
    (s.logRead v).seedLen = s.seedLen := rfl
@[simp] theorem State.logRead_res (v : Word) (s : State) :
    (s.logRead v).res = s.res := rfl
@[simp] theorem State.logRead_seedBuf (v : Word) (s : State) :
    (s.logRead v).seedBuf = s.seedBuf := rfl
@[simp] theorem State.logRead_host (v : Word) (s : State) :
    (s.logRead v).host = s.host := rfl
@[simp] theorem State.logRead_reads (v : Word) (s : State) :
    (s.logRead v).reads = v :: s.reads := rfl
@[simp] theorem State.logRead_hold (v : Word) (s : State) :
    (s.logRead v).hold = s.hold := rfl
@[simp] theorem State.logRead_accepted (v : Word) (s : State) :
    (s.logRead v).accepted = s.accepted := rfl

/-! ## writeStatus: the write-1-to-clear of OVR (10_state.md R32) -/

@[simp] theorem State.writeStatus_cache (v : Word) (s : State) :
    (s.writeStatus v).cache = s.cache := rfl
@[simp] theorem State.writeStatus_rng (v : Word) (s : State) :
    (s.writeStatus v).rng = s.rng := rfl
@[simp] theorem State.writeStatus_seeded (v : Word) (s : State) :
    (s.writeStatus v).seeded = s.seeded := rfl
@[simp] theorem State.writeStatus_phase (v : Word) (s : State) :
    (s.writeStatus v).phase = s.phase := rfl
@[simp] theorem State.writeStatus_lastCmd (v : Word) (s : State) :
    (s.writeStatus v).lastCmd = s.lastCmd := rfl
@[simp] theorem State.writeStatus_done (v : Word) (s : State) :
    (s.writeStatus v).done = s.done := rfl
@[simp] theorem State.writeStatus_err (v : Word) (s : State) :
    (s.writeStatus v).err = s.err := rfl
@[simp] theorem State.writeStatus_errCode (v : Word) (s : State) :
    (s.writeStatus v).errCode = s.errCode := rfl
@[simp] theorem State.writeStatus_ovr (v : Word) (s : State) :
    (s.writeStatus v).ovr = (s.ovr && !v.getLsbD 8) := rfl
@[simp] theorem State.writeStatus_errInfo (v : Word) (s : State) :
    (s.writeStatus v).errInfo = s.errInfo := rfl
@[simp] theorem State.writeStatus_args (v : Word) (s : State) :
    (s.writeStatus v).args = s.args := rfl
@[simp] theorem State.writeStatus_nmax (v : Word) (s : State) :
    (s.writeStatus v).nmax = s.nmax := rfl
@[simp] theorem State.writeStatus_seedLen (v : Word) (s : State) :
    (s.writeStatus v).seedLen = s.seedLen := rfl
@[simp] theorem State.writeStatus_res (v : Word) (s : State) :
    (s.writeStatus v).res = s.res := rfl
@[simp] theorem State.writeStatus_seedBuf (v : Word) (s : State) :
    (s.writeStatus v).seedBuf = s.seedBuf := rfl
@[simp] theorem State.writeStatus_host (v : Word) (s : State) :
    (s.writeStatus v).host = s.host := rfl
@[simp] theorem State.writeStatus_reads (v : Word) (s : State) :
    (s.writeStatus v).reads = s.reads := rfl
@[simp] theorem State.writeStatus_hold (v : Word) (s : State) :
    (s.writeStatus v).hold = s.hold := rfl
@[simp] theorem State.writeStatus_accepted (v : Word) (s : State) :
    (s.writeStatus v).accepted = s.accepted := rfl

/-! ## resetEvent: the reset event (70_reset_and_hazards.md R231) -/

@[simp] theorem resetEvent_cache (s : State) :
    (resetEvent s).cache = State.reset.cache := rfl
@[simp] theorem resetEvent_rng (s : State) :
    (resetEvent s).rng = State.reset.rng := rfl
@[simp] theorem resetEvent_seeded (s : State) :
    (resetEvent s).seeded = State.reset.seeded := rfl
@[simp] theorem resetEvent_phase (s : State) :
    (resetEvent s).phase = State.reset.phase := rfl
@[simp] theorem resetEvent_lastCmd (s : State) :
    (resetEvent s).lastCmd = State.reset.lastCmd := rfl
@[simp] theorem resetEvent_done (s : State) :
    (resetEvent s).done = State.reset.done := rfl
@[simp] theorem resetEvent_err (s : State) :
    (resetEvent s).err = State.reset.err := rfl
@[simp] theorem resetEvent_errCode (s : State) :
    (resetEvent s).errCode = State.reset.errCode := rfl
@[simp] theorem resetEvent_ovr (s : State) :
    (resetEvent s).ovr = State.reset.ovr := rfl
@[simp] theorem resetEvent_errInfo (s : State) :
    (resetEvent s).errInfo = State.reset.errInfo := rfl
@[simp] theorem resetEvent_args (s : State) :
    (resetEvent s).args = State.reset.args := rfl
@[simp] theorem resetEvent_nmax (s : State) :
    (resetEvent s).nmax = State.reset.nmax := rfl
@[simp] theorem resetEvent_seedLen (s : State) :
    (resetEvent s).seedLen = State.reset.seedLen := rfl
@[simp] theorem resetEvent_res (s : State) :
    (resetEvent s).res = State.reset.res := rfl
@[simp] theorem resetEvent_seedBuf (s : State) :
    (resetEvent s).seedBuf = State.reset.seedBuf := rfl
@[simp] theorem resetEvent_host (s : State) :
    (resetEvent s).host = s.host := rfl
@[simp] theorem resetEvent_reads (s : State) :
    (resetEvent s).reads = s.reads := rfl
@[simp] theorem resetEvent_hold (s : State) :
    (resetEvent s).hold = State.reset.hold := rfl
@[simp] theorem resetEvent_accepted (s : State) :
    (resetEvent s).accepted = s.accepted := rfl

end Sys2Proof.Machine
end

