-- ==== Sys2Proof/Laws/Bus.lean ====
section
/-! SUPPORT. The window's map, the bus, and what one step can do, each said once. -/

namespace Sys2Proof.Machine

/-! ## The window's map -/

/-- The register at a register's offset is that register (10_state.md R28). -/
theorem Reg.ofOffset_offset (r : Reg) : Reg.ofOffset r.offset = some r := by
  cases r with
  | arg i => revert i; decide
  | reserved i => revert i; decide
  | res i => revert i; decide
  | seedBuf j => revert j; decide
  | _ => decide

/-- Every offset of the map is a multiple of 4 inside the window (20_memory.md R60). -/
theorem Reg.offset_aligned (r : Reg) : r.offset % 4 = 0 ∧ r.offset < Config.windowBytes := by
  cases r <;> simp [Reg.offset, Config.windowBytes] <;> omega

/-- A register that stands at an offset: the offset is its own (10_state.md R28). -/
theorem Reg.offset_of_ofOffset {off : Nat} {r : Reg} (h : Reg.ofOffset off = some r) : r.offset = off := by
  have hlt : off < 512 := by
    unfold Reg.ofOffset at h
    split at h
    · cases h
    · split at h
      · omega
      · split at h
        · omega
        · split at h
          · omega
          · cases h
  have all : ∀ o : Fin 512, ∀ q, Reg.ofOffset o.val = some q → q.offset = o.val := by
    intro o
    have each : ∀ o : Fin 512, (match Reg.ofOffset o.val with
        | some q => q.offset == o.val
        | none => true) = true := by decide +kernel
    intro q hq
    have := each o
    rw [hq] at this
    simpa using this
  exact all ⟨off, hlt⟩ r h

/-! ## The bus -/

/-- A 4-byte access at BLOCK_BASE + off reaches the register at `off` (20_memory.md R60). -/
theorem busTarget_base_add (off : Nat) : busTarget (Config.blockBase + off) 4 = Reg.ofOffset off := by
  simp [busTarget]

/-- A register's own address reaches it. -/
theorem busTarget_reg (r : Reg) : busTarget (Config.blockBase + r.offset) 4 = some r := by
  rw [busTarget_base_add, Reg.ofOffset_offset]

/-- An access that reaches a register is well formed (20_memory.md R60, R61). -/
theorem wellFormed_of_busTarget {addr width : Nat} {r : Reg} (h : busTarget addr width = some r) :
    WellFormed.access Config.blockBase addr width = true := by
  unfold busTarget at h
  split at h
  · rename_i hw
    obtain ⟨rfl, hle⟩ := hw
    have ho := Reg.offset_of_ofOffset h
    obtain ⟨ha, hlt⟩ := Reg.offset_aligned r
    have hb := Config.blockBase_mod_four
    have h4 : addr % 4 = 0 := by omega
    have hin : addr < Config.blockBase + Config.windowBytes := by omega
    simp [WellFormed.access, h4, hle, hin]
  · cases h

/-! ## Writes -/

/-- A write guarded by the phase: its effect while IDLE, OVR while BUSY (20_memory.md R63). -/
theorem unlessBusy_cases (body : State → State) (s : State) :
    (s.phase = .idle ∧ unlessBusy body s = body s) ∨
    (s.phase = .busy ∧ unlessBusy body s = { s with ovr := true }) := by
  unfold unlessBusy
  cases h : s.phase <;> simp

/-- An access that is not well formed reaches no register (20_memory.md R61). -/
theorem busTarget_eq_none {addr width : Nat} (h : WellFormed.access Config.blockBase addr width = false) :
    busTarget addr width = none := by
  cases hb : busTarget addr width with
  | none => rfl
  | some r => exact absurd (wellFormed_of_busTarget hb) (by simp [h])

/-! ## Steps -/

/-- When the host moves, the step performs its oldest operation. -/
theorem HostMoves.step_eq {s : State} {op : HostOp} {rest : List HostOp} (h : HostMoves s op rest) :
    step s = performHostOp op s := by
  simp [step, h.not_sequencer, hostStep, h.host_is]

/-- The two phases as `isBusy` sees them. -/
theorem State.isBusy_eq (s : State) : s.isBusy = decide (s.phase = .busy) := by
  cases h : s.phase <;> simp [State.isBusy, h]

/-- What a step can do, once: the sequencer runs the accepted command, or it meets an illegal word, or the host's oldest
operation is performed, or nothing happens. -/
theorem step_cases (s : State) :
    (s.sequencerMoves = true ∧ ∃ i, decode s.lastCmd = .ok i ∧ step s = exec i s) ∨
    (s.sequencerMoves = true ∧ ∃ e, decode s.lastCmd = .error e ∧
      step s = .next (raiseError .illegalCommand s.lastCmd s)) ∨
    (s.sequencerMoves = false ∧ ∃ op rest, s.host = op :: rest ∧ step s = performHostOp op s) ∨
    (s.sequencerMoves = false ∧ s.host = [] ∧ step s = .next s) := by
  by_cases hm : s.sequencerMoves = true
  · cases hd : decode s.lastCmd with
    | ok i => exact .inl ⟨hm, i, rfl, by simp [step, hm, sequencerStep, hd]⟩
    | error e => exact .inr (.inl ⟨hm, e, rfl, by simp [step, hm, sequencerStep, hd, execIllegal]⟩)
  · have hm' : s.sequencerMoves = false := by simpa using hm
    cases hh : s.host with
    | nil => exact .inr (.inr (.inr ⟨hm', rfl, by simp [step, hm', hostStep, hh]⟩))
    | cons op rest => exact .inr (.inr (.inl ⟨hm', op, rest, rfl, by simp [step, hm', hostStep, hh]⟩))

/-- What performing one host operation can do when it does not fault. -/
theorem performHostOp_cases {op : HostOp} {s t : State} (h : performHostOp op s = .next t) :
    (∃ addr width r, op = .read addr width ∧ busTarget addr width = some r ∧
      t = (s.logRead (s.readReg r)).hostDone) ∨
    (∃ addr width v r, op = .write addr width v ∧ busTarget addr width = some r ∧
      t = s.hostDone.writeReg (Config.latency s.accepted) v r) ∨
    (op = .poll ∧ s.isBusy = true ∧ t = { s.logRead s.statusWord with hold := s.hold - 1 }) ∨
    (op = .poll ∧ s.isBusy = false ∧ t = (s.logRead s.statusWord).hostDone) ∨
    (op = .reset ∧ t = resetEvent { s with host := s.host.tail }) := by
  cases op with
  | read addr width =>
    simp only [performHostOp] at h
    split at h
    · rename_i r hr
      exact .inl ⟨addr, width, r, rfl, hr, by cases h; rfl⟩
    · cases h
  | write addr width v =>
    simp only [performHostOp] at h
    split at h
    · rename_i r hr
      exact .inr (.inl ⟨addr, width, v, r, rfl, hr, by cases h; rfl⟩)
    · cases h
  | poll =>
    simp only [performHostOp] at h
    split at h
    · rename_i hb
      exact .inr (.inr (.inl ⟨rfl, hb, by cases h; rfl⟩))
    · rename_i hb
      exact .inr (.inr (.inr (.inl ⟨rfl, by simpa using hb, by cases h; rfl⟩)))
  | reset =>
    simp only [performHostOp] at h
    exact .inr (.inr (.inr (.inr ⟨rfl, by cases h; rfl⟩)))

end Sys2Proof.Machine
end

