-- ==== Sys2Proof/Laws/Ops.lean ====
section
/-! SUPPORT. What the shared operations of the sequencer can do, each said once; provers cite these in place of
unfolding. -/

namespace Sys2Proof.Machine

/-- The commit of the machine leaves what 30_encoding.md R93 says. -/
theorem commit_eq_afterCommit (result : List Word) (s : State) :
    commit result s = afterCommit s result s.cache s.rng s.seeded := rfl

/-- The error commit of the machine leaves what 60_exceptions.md R201 says. -/
theorem raiseError_eq_afterError (e : ErrKind) (info : Word) (s : State) :
    raiseError e info s = afterError s e info s.cache := rfl

/-- The check against NMAX: InvalidInput(n), or the body (60_exceptions.md R202). -/
theorem checkAtMostNmax_cases (n : Word) (body : State → State) (s : State) :
    (s.nmax < n ∧ checkAtMostNmax n body s = raiseError .invalidInput n s) ∨
    (n ≤ s.nmax ∧ checkAtMostNmax n body s = body s) := by
  unfold checkAtMostNmax
  by_cases h : s.nmax < n
  · exact .inl ⟨h, by simp [h]⟩
  · exact .inr ⟨by simpa [BitVec.not_lt] using h, by simp [h]⟩

/-- The check against 0 and NMAX: InvalidInput(n), or the body (60_exceptions.md R202). -/
theorem checkPositiveAtMostNmax_cases (n : Word) (body : State → State) (s : State) :
    ((n = 0 ∨ s.nmax < n) ∧ checkPositiveAtMostNmax n body s = raiseError .invalidInput n s) ∨
    (n ≠ 0 ∧ n ≤ s.nmax ∧ checkPositiveAtMostNmax n body s = body s) := by
  unfold checkPositiveAtMostNmax
  by_cases h : n = 0 ∨ s.nmax < n
  · exact .inl ⟨h, if_pos h⟩
  · refine .inr ⟨fun h0 => h (.inl h0), ?_, if_neg h⟩
    have : ¬ s.nmax < n := fun hl => h (.inr hl)
    simpa [BitVec.not_lt] using this

/-- The check of SEEDED: NotSeeded(0), or the body (60_exceptions.md R202). -/
theorem checkSeeded_cases (body : State → State) (s : State) :
    (s.seeded = false ∧ checkSeeded body s = raiseError .notSeeded 0 s) ∨
    (s.seeded = true ∧ checkSeeded body s = body s) := by
  unfold checkSeeded
  cases h : s.seeded <;> simp

/-- The end of a command that may grow the cache: a commit, or CacheFull with the growth kept (40_prime_cache.md
R101). -/
theorem finishGrown_cases {α : Type} (result : α → List Word) (g : Grown α) (s : State) :
    (∃ a c, g = .done a c ∧ finishGrown result g s = afterCommit s (result a) c s.rng s.seeded) ∨
    (∃ k c, g = .full k c ∧ finishGrown result g s = afterError s .cacheFull k c) := by
  cases g with
  | done a c => exact .inl ⟨a, c, rfl, rfl⟩
  | full k c => exact .inr ⟨k, c, rfl, rfl⟩

end Sys2Proof.Machine
end

