-- ==== Sys2Proof/Laws/PerInstr.lean ====
section
/-! SUPPORT. Facts about the commands as syntax, one lemma per constructor (LAWS.json). -/

namespace Sys2Proof.Laws.CommandWord

/-- The command word of a command has RSV = 0 and the command's OPCODE, and decodes to the command (30_encoding.md R80,
R83, R86). -/
def Statement (i : Instr) : Prop :=
  reservedField (encode i) = 0 ∧ opcodeField (encode i) = opcode i ∧ decode (encode i) = .ok i

theorem cacheReset : Statement .cacheReset := by unfold Statement; decide
theorem growTo : Statement .growTo := by unfold Statement; decide
theorem isPrime : Statement .isPrime := by unfold Statement; decide
theorem classify : Statement .classify := by unfold Statement; decide
theorem primeAt : Statement .primeAt := by unfold Statement; decide
theorem factorize : Statement .factorize := by unfold Statement; decide
theorem phi : Statement .phi := by unfold Statement; decide
theorem sigma : Statement .sigma := by unfold Statement; decide
theorem aliquot : Statement .aliquot := by unfold Statement; decide
theorem seed : Statement .seed := by unfold Statement; decide
theorem rngLoad : Statement .rngLoad := by unfold Statement; decide
theorem next32 : Statement .next32 := by unfold Statement; decide
theorem nextFloat : Statement .nextFloat := by unfold Statement; decide
theorem nextBounded : Statement .nextBounded := by unfold Statement; decide

end Sys2Proof.Laws.CommandWord
end

