-- ==== Sys2Proof/Laws/PrimeCache.lean ====
section
/-! SUPPORT. What growing the cache can do, said once (40_prime_cache.md R101), whatever the cache holds; and the
invariants of the initial cache (70_reset_and_hazards.md R232). -/

namespace Sys2Proof.Machine

/-- The initial cache satisfies 10_state.md R23. -/
theorem Cache.initial_inv {capacity : Nat} (h : 1 ≤ capacity) : Cache.initial.Inv capacity where
  first_entry := rfl
  two_le_hw := by decide
  ascending := by decide
  entries_prime := by
    intro p hp
    obtain rfl : p = 2 := by simpa [Cache.initial] using hp
    exact ⟨Nat.prime_two, by decide⟩
  classified := by
    intro k hk hp
    have h2 : k.toNat ≤ 2 := hk
    have : k.toNat = 2 := le_antisymm h2 hp.two_le
    have : k = 2 := BitVec.eq_of_toNat_eq this
    simp [Cache.initial, this]
  fits := h

/-- The loop of GrowTo: it ends with `hw` at the last candidate, or CacheFull at a candidate `k` with `hw = k - 1` and
the cache memory full; either way it only appends. -/
theorem growLoop_cases (capacity : Nat) :
    ∀ (steps k : Nat) (primes : List Word), 1 ≤ k → k + steps ≤ 2 ^ 32 →
      (∃ c, growLoop capacity steps k primes = .done () c ∧ primes <+: c.primes ∧ c.hw.toNat = k + steps - 1) ∨
      (∃ j c, growLoop capacity steps k primes = .full (BitVec.ofNat 32 j) c ∧ primes <+: c.primes ∧ k ≤ j ∧
        j < k + steps ∧ c.hw.toNat = j - 1 ∧ c.primes.length = capacity ∧ classifyCandidate j c.primes = true)
  | 0, k, primes, hk, hb => by
    have hw : (BitVec.ofNat 32 (k - 1)).toNat = k + 0 - 1 := by
      rw [BitVec.toNat_ofNat, Nat.mod_eq_of_lt (by omega)]; omega
    exact .inl ⟨_, rfl, List.prefix_refl _, hw⟩
  | steps + 1, k, primes, hk, hb => by
    unfold growLoop
    by_cases hp : classifyCandidate k primes = true
    · by_cases hf : primes.length = capacity
      · refine .inr ⟨k, _, by rw [if_pos hp, if_pos hf], List.prefix_refl _, le_refl _, by omega, ?_, hf, hp⟩
        rw [BitVec.toNat_ofNat, Nat.mod_eq_of_lt (by omega)]
      · rw [if_pos hp, if_neg hf]
        have hpre : primes <+: primes ++ [BitVec.ofNat 32 k] := List.prefix_append _ _
        rcases growLoop_cases capacity steps (k + 1) _ (by omega) (by omega) with
          ⟨c, h, hc, hw⟩ | ⟨j, c, h, hc, h1, h2, hr⟩
        · exact .inl ⟨c, h, hpre.trans hc, by omega⟩
        · exact .inr ⟨j, c, h, hpre.trans hc, by omega, by omega, hr⟩
    · rw [if_neg hp]
      rcases growLoop_cases capacity steps (k + 1) primes (by omega) (by omega) with
        ⟨c, h, hc, hw⟩ | ⟨j, c, h, hc, h1, h2, hr⟩
      · exact .inl ⟨c, h, hc, by omega⟩
      · exact .inr ⟨j, c, h, hc, by omega, by omega, hr⟩

/-- GrowTo(n): the cache as it was, or grown to `hw = n`, or CacheFull(j) at a candidate `j ≤ n` with `hw = j - 1`;
either way entries are only appended and `hw` is not lowered (40_prime_cache.md R101). -/
theorem growTo_cases (capacity : Nat) {n : Nat} (hn : n < 2 ^ 32) (c : Cache) :
    (n ≤ c.hw.toNat ∧ growTo capacity n c = .done () c) ∨
    (c.hw.toNat < n ∧ ∃ c', growTo capacity n c = .done () c' ∧ c.primes <+: c'.primes ∧ c'.hw.toNat = n) ∨
    (c.hw.toNat < n ∧ ∃ j c', growTo capacity n c = .full (BitVec.ofNat 32 j) c' ∧ c.primes <+: c'.primes ∧
      c.hw.toNat < j ∧ j ≤ n ∧ c'.hw.toNat = j - 1 ∧ c'.primes.length = capacity ∧
      classifyCandidate j c'.primes = true) := by
  unfold growTo
  by_cases h : n ≤ c.hw.toNat
  · exact .inl ⟨h, if_pos h⟩
  · rw [if_neg h]
    rcases growLoop_cases capacity (n - c.hw.toNat) (c.hw.toNat + 1) c.primes (by omega) (by omega) with
      ⟨c', he, hp, hw⟩ | ⟨j, c', he, hp, h1, h2, h3, hr⟩
    · exact .inr (.inl ⟨by omega, c', he, hp, by omega⟩)
    · exact .inr (.inr ⟨by omega, j, c', he, hp, by omega, by omega, h3, hr⟩)

end Sys2Proof.Machine
end

