-- ==== Sys2Proof/Laws/PrimeCount.lean ====
section
/-! SUPPORT. The count on which the least PRIME_CAPACITY rests (00_scope.md R6): at most 6542 primes are not above
65536 = ceil_sqrt(2^32 - 1). A number above 256 and below 65536 that is prime is coprime to the product of the primes
below 256, so it is enough to count those. -/

-- The one long kernel evaluation below is done in place, so that no later proof waits for it in a thread of its own.
set_option Elab.async false

namespace Sys2Proof.PrimeCount

/-- The primes below 256. -/
def smallPrimes : List Nat :=
  [2, 3, 5, 7, 11, 13, 17, 19, 23, 29, 31, 37, 41, 43, 47, 53, 59, 61, 67, 71, 73, 79, 83, 89, 97, 101, 103] ++
  [107, 109, 113, 127, 131, 137, 139, 149, 151, 157, 163, 167, 173, 179, 181, 191, 193, 197, 199, 211, 223] ++
  [227, 229, 233, 239, 241, 251]

/-- Their product. -/
def smallProduct : Nat :=
  64266330917908644872330635228106713310880186591609208114244758680898150367880703152525200743234420230

/-- A test that every prime below 65536 passes. -/
def mayBePrime (n : Nat) : Bool :=
  cond (Nat.blt n 257) (smallPrimes.any (Nat.beq n)) (Nat.beq (Nat.gcd n smallProduct) 1)

/-- How many of the `2 ^ d` numbers from `a` on pass the test. -/
def passing : Nat → Nat → Nat
  | 0, a => cond (mayBePrime a) 1 0
  | d + 1, a => passing d a + passing d (a + 2 ^ d)

theorem smallProduct_eq : smallProduct = smallPrimes.prod := by decide +kernel

theorem smallPrimes_bound : ∀ p ∈ smallPrimes, 0 < p ∧ p < 257 := by decide +kernel

/-- A number below 257 that is not listed is 0, 1 or a proper multiple of a listed one. -/
theorem not_listed_below_257 :
    ∀ n < 257, mayBePrime n = true ∨ n < 2 ∨ smallPrimes.any (fun p => Nat.blt p n && Nat.blt 1 p && n % p == 0) := by
  decide +kernel

theorem mayBePrime_of_prime {n : Nat} (hn : n.Prime) : mayBePrime n = true := by
  by_cases hlt : n < 257
  · rcases not_listed_below_257 n hlt with h | h | h
    · exact h
    · exact absurd hn.two_le (by omega)
    · obtain ⟨p, -, hp⟩ := List.any_eq_true.mp h
      simp only [Bool.and_eq_true, Nat.blt_eq, beq_iff_eq] at hp
      have hd : p ∣ n := Nat.dvd_of_mod_eq_zero hp.2
      rcases (Nat.dvd_prime hn).mp hd with h1 | h1 <;> omega
  · have hnd : ¬ n ∣ smallProduct := fun hd => by
      rw [smallProduct_eq] at hd
      obtain ⟨p, hp, hnp⟩ := (Nat.Prime.prime hn).dvd_prod_iff.mp hd
      have hb := smallPrimes_bound p hp
      have := Nat.le_of_dvd hb.1 hnp
      omega
    have hg : Nat.gcd n smallProduct = 1 := (Nat.Prime.coprime_iff_not_dvd hn).mpr hnd
    have hb : Nat.blt n 257 = false := by simpa [Bool.eq_false_iff, Nat.blt_eq] using hlt
    simp [mayBePrime, hb, hg]

theorem count_eq_passing (d a : Nat) :
    Nat.count (fun k => mayBePrime (a + k) = true) (2 ^ d) = passing d a := by
  induction d generalizing a with
  | zero => rw [Nat.pow_zero, Nat.count_succ]; simp [passing]
  | succ d ih =>
    have hs : (2 : Nat) ^ (d + 1) = 2 ^ d + 2 ^ d := by omega
    rw [hs, Nat.count_add, ih]
    simp only [passing, ← Nat.add_assoc]
    rw [← ih (a + 2 ^ d)]

theorem passing_below_65536 : passing 16 0 = 6542 := by decide +kernel

/-- At most 6542 primes are not above 65536 (00_scope.md R6). -/
theorem primeCounting_65536_le : Nat.primeCounting 65536 ≤ 6542 := by
  have hmono : Nat.count Nat.Prime (2 ^ 16) ≤ Nat.count (fun k => mayBePrime (0 + k) = true) (2 ^ 16) :=
    Nat.count_mono_left fun k _ hk => by simpa using mayBePrime_of_prime hk
  have hnot : ¬ Nat.Prime (2 ^ 16) := Nat.Prime.not_prime_pow (by decide)
  have hsucc : Nat.primeCounting (2 ^ 16) = Nat.count Nat.Prime (2 ^ 16) := by
    rw [Nat.primeCounting, Nat.primeCounting', Nat.count_succ, if_neg hnot, Nat.add_zero]
  calc Nat.primeCounting 65536 = Nat.count Nat.Prime (2 ^ 16) := hsucc
    _ ≤ passing 16 0 := (count_eq_passing 16 0) ▸ hmono
    _ = 6542 := passing_below_65536

end Sys2Proof.PrimeCount
end

