-- ==== Sys2Proof/Tests/Slice0.lean ====
section
/-! SUPPORT. The model's own tests: words of the opcode map written out bit by bit, ill-formed terms that the checks
refuse, small vectors of 95_test_vectors.md, and for each obligation with hypotheses a state that meets them. -/

namespace Sys2Proof.Tests

open Sys2Proof.Machine

/-! ## Decode: the words of opcode_table.json's "encoding" column -/

theorem test_decode_cacheReset : decode 0b00000000000000000000000000010000 = .ok .cacheReset := by decide
theorem test_decode_growTo : decode 0b00000000000000000000000000010001 = .ok .growTo := by decide
theorem test_decode_isPrime : decode 0b00000000000000000000000000010010 = .ok .isPrime := by decide
theorem test_decode_classify : decode 0b00000000000000000000000000010011 = .ok .classify := by decide
theorem test_decode_primeAt : decode 0b00000000000000000000000000010100 = .ok .primeAt := by decide
theorem test_decode_factorize : decode 0b00000000000000000000000000100000 = .ok .factorize := by decide
theorem test_decode_phi : decode 0b00000000000000000000000000100001 = .ok .phi := by decide
theorem test_decode_sigma : decode 0b00000000000000000000000000100010 = .ok .sigma := by decide
theorem test_decode_aliquot : decode 0b00000000000000000000000000100011 = .ok .aliquot := by decide
theorem test_decode_seed : decode 0b00000000000000000000000000110000 = .ok .seed := by decide
theorem test_decode_rngLoad : decode 0b00000000000000000000000000110001 = .ok .rngLoad := by decide
theorem test_decode_next32 : decode 0b00000000000000000000000000110010 = .ok .next32 := by decide
theorem test_decode_nextFloat : decode 0b00000000000000000000000000110011 = .ok .nextFloat := by decide
theorem test_decode_nextBounded : decode 0b00000000000000000000000000110100 = .ok .nextBounded := by decide

/-- 95_test_vectors.md 2.5: illegal words, at the edges of the assigned ranges. -/
theorem test_decode_illegal : ([0x0, 0xF, 0x15, 0x24, 0x35, 0xFF] : List Word).map decode =
    List.replicate 6 (.error .opcodeUnassigned) := by decide
theorem test_decode_reserved : ([0x112, 0x80000010, 0xFFFFFFFF] : List Word).map decode =
    List.replicate 3 (.error .reservedBitsSet) := by decide
theorem test_decodeTableWord : decodeTableWord 32 0x34 = some .nextBounded ∧ decodeTableWord 32 0x112 = none := by
  decide

/-! ## WellFormed: a term each check refuses -/

theorem test_wf_commandWord_ok : WellFormed.commandWord 0x12 = true := by decide
theorem test_wf_commandWord_reserved : WellFormed.commandWord 0x112 = false := by decide
theorem test_wf_commandWord_opcode : WellFormed.commandWord 0x15 = false := by decide
theorem test_wf_access_ok : WellFormed.access 512 0x3FC 4 = true := by decide +kernel
theorem test_wf_access_width : WellFormed.access 512 0x200 2 = false := by decide +kernel
theorem test_wf_access_aligned : WellFormed.access 512 0x202 4 = false := by decide +kernel
theorem test_wf_access_below : WellFormed.access 512 0x1FC 4 = false := by decide +kernel
theorem test_wf_access_above : WellFormed.access 512 0x400 4 = false := by decide +kernel
theorem test_wf_hostOp : WellFormed.hostOp 0 (.write 0x10 2 0) = false ∧ WellFormed.hostOp 0 (.read 0x11 4) = false := by
  decide
theorem test_wf_stmt_plain : WellFormed.stmt (.plain .growTo) = false := by decide
theorem test_wf_stmt_unary : WellFormed.stmt (.unary .seed 0) = false := by decide
theorem test_wf_stmt_seed : WellFormed.stmt (.seed (List.replicate 257 0)) = false := by decide +kernel
theorem test_wf_instr : ∀ i ∈ Instr.all, i.wf = true := by decide

/-! ## States for the tests -/

/-- An idle block at reset whose host has `ops` to do. -/
def idleWith (ops : List HostOp) : State := { State.reset with host := ops }

/-- A block that has accepted word `w`, with `hold` host operations before the commit. -/
def busyWith (w : Word) (hold : Nat) (ops : List HostOp) : State :=
  { State.reset with phase := .busy, lastCmd := w, hold := hold, host := ops }

/-- A block with `n` in ARG0 and NMAX at the default of its reset value. -/
def withArg (n : Word) : State := { State.reset with args := #v[n, 0, 0, 0], nmax := Config.nmaxResetDefault }

/-- The block after GROW_TO 30 (95_test_vectors.md P1). -/
def cacheThirty : Cache := { primes := [2, 3, 5, 7, 11, 13, 17, 19, 23, 29], hw := 30 }

/-- A cache that lists the first primes and needs no growth, to test large operands in few steps. -/
def cacheWide : Cache := { primes := [2, 3, 5, 7, 11, 13, 17], hw := 65536 }

/-- A block with the state of 95_test_vectors.md P3 loaded. -/
def loaded : State :=
  { State.reset with
    rng := { a := 0x01234567, b := 0x89ABCDEF, c := 0xFEDCBA98, d := 0x76543210 }
    seeded := true
    nmax := Config.nmaxResetDefault }

/-- The state an outcome goes on with. -/
def after (o : Host.Outcome State Fault Refusal) (p : State → Bool) : Bool :=
  match o with
  | .next t => p t
  | .fault _ => false
  | .refused _ => false

/-! ## One step of each command, against 95_test_vectors.md -/

theorem test_cacheReset : after (exec .cacheReset { State.reset with cache := cacheThirty })
    (fun t => t.cache.hw == 2 && t.cache.count == 1 && t.statusWord == 0x002) = true := by decide +kernel
/-- P1. -/
theorem test_growTo_30 : after (exec .growTo (withArg 30)) (fun t => t.cache == cacheThirty) = true := by decide +kernel
/-- R101 in a block whose cache memory is full: CacheFull at the first prime that does not fit. -/
theorem test_growTo_full : growToCommand 1 (withArg 8) =
    afterError (withArg 8) .cacheFull 3 { primes := [2], hw := 2 } := by decide +kernel
/-- R112's example. -/
theorem test_isPrime_97 : after (exec .isPrime (withArg 97))
    (fun t => t.res[0] == 1 && t.cache.hw == 10 && t.cache.count == 4) = true := by decide +kernel
/-- C5. -/
theorem test_isPrime_overMax : after (exec .isPrime (withArg 1000000001))
    (fun t => t.statusWord == 0x016 && t.errInfo == 1000000001 && t.cache.count == 1) = true := by decide +kernel
/-- P1. -/
theorem test_classify_25 : after (exec .classify { withArg 25 with cache := cacheThirty })
    (fun t => t.res[0] == 2) = true := by decide +kernel
theorem test_classify_31 : after (exec .classify { withArg 31 with cache := cacheThirty })
    (fun t => t.res[0] == 0 && t.done) = true := by decide +kernel
/-- R114's example. -/
theorem test_primeAt_9 : after (exec .primeAt { withArg 9 with cache := cacheThirty })
    (fun t => t.res[0] == 29) = true := by decide +kernel
theorem test_primeAt_10 : after (exec .primeAt { withArg 10 with cache := cacheThirty })
    (fun t => t.errInfo == 10 && t.statusWord == 0x016) = true := by decide +kernel
/-- P2; it also meets the inner hypotheses of FactorizationFitsTheResultRegisters (RES0 = 3: pairs 0 to 2, RES7 on 0). -/
theorem test_factorize_360 : after (exec .factorize (withArg 360))
    (fun t => t.res.toList.take 8 == [3, 2, 3, 3, 2, 5, 1, 0] && t.cache.hw == 19 && t.cache.count == 8) = true := by
  decide +kernel
theorem test_factorize_0 : after (exec .factorize (withArg 0))
    (fun t => t.statusWord == 0x016 && t.errInfo == 0) = true := by decide +kernel
theorem test_phi_360 : after (exec .phi (withArg 360)) (fun t => t.res[0] == 96) = true := by decide +kernel
/-- R137: a result above 32 bits. -/
theorem test_sigma_wide : after (exec .sigma { withArg 980179200 with cache := cacheWide })
    (fun t => t.res[0] == 0x28F23C80 && t.res[1] == 1) = true := by decide +kernel
theorem test_aliquot_220 : after (exec .aliquot (withArg 220)) (fun t => t.res[0] == 284 && t.res[1] == 0) = true := by
  decide +kernel
/-- P4. -/
theorem test_seed_abc : after (exec .seed
      { State.reset with seedBuf := (Vector.replicate 64 0xFFFFFFFF).set 0 0xFF636261, seedLen := 3 })
    (fun t => t.res[4] == 0x9CD0D89D && t.rng.a == 0xA9993E36 && t.rng.d == 0x7850C26C && t.seeded) = true := by
  decide +kernel
/-- N6. -/
theorem test_seed_257 : after (exec .seed { State.reset with seedLen := 257 })
    (fun t => t.statusWord == 0x016 && t.errInfo == 257) = true := by decide +kernel
theorem test_rngLoad : after (exec .rngLoad { State.reset with args := #v[1, 2, 3, 4] })
    (fun t => t.rng == { a := 1, b := 2, c := 3, d := 4 } && t.statusWord == 0x202) = true := by decide +kernel
/-- P3 and the states of section 2.4. -/
theorem test_next32 : after (exec .next32 loaded) (fun t => t.res[0] == 0x8170174E &&
    t.rng == { a := 0xFC9A3056, b := 0x7530ECA8, c := 0xFB2A1908, d := 0x8170174E }) = true := by decide +kernel
/-- N1. -/
theorem test_next32_unseeded : after (exec .next32 State.reset) (fun t => t.statusWord == 0x036) = true := by
  decide +kernel
/-- P3, from the state after three draws. -/
theorem test_nextFloat : after (exec .nextFloat
      { loaded with rng := { a := 0xFCE44497, b := 0x3A72842C, c := 0x934E0D67, d := 0x90208E11 } })
    (fun t => t.res.toList.take 5 == [0x5DF779CA, 0x3FE7C05F, 0xBBCE5326, 0xBE02FAEF, 0]) = true := by decide +kernel
/-- F7, F8, F14. -/
theorem test_toFloat : toFloat 0xFFFFFBFF 0xFFFFFFFF = 0x3FEFFFFFFFFFFFFF ∧
    toFloat 0xFFFFFC00 0xFFFFFFFF = 0x3FF0000000000000 ∧ toFloat 0xC00 0x80000000 = 0x3FE0000000000002 := by
  decide +kernel
/-- N12. -/
theorem test_nextBounded : after (exec .nextBounded { loaded with args := #v[0xFFFFFFFF, 0, 0, 0], nmax := 0xFFFFFFFF })
    (fun t => t.res[0] == 0x8170174D) = true := by decide +kernel
/-- N4: InvalidInput before NotSeeded. -/
theorem test_nextBounded_priority : after (exec .nextBounded (withArg 0))
    (fun t => t.statusWord == 0x016 && t.errInfo == 0) = true := by decide +kernel
/-- Section 2.1. -/
theorem test_ceilSqrt : [0, 1, 2, 4, 5, 100, 101, 4294836225, 4294836226, 4294967295].map ceilSqrt =
    [0, 1, 2, 2, 3, 10, 11, 65535, 65536, 65536] := by decide +kernel
theorem test_rotl32 : rotl32 0x89ABCDEF 27 = 0x7C4D5E6F ∧ rotl32 0x80000000 17 = 0x00010000 := by decide

/-! ## The sequencer and the bus -/

/-- An illegal word: P4's `cmdw 0x00000112`. -/
theorem test_step_illegal : after (step (busyWith 0x112 0 []))
    (fun t => t.statusWord == 0x026 && t.errInfo == 0x112 && t.lastCmd == 0x112) = true := by decide +kernel
/-- The word that stands for the CMD write is the one the next step runs, on any host queue. -/
theorem test_withFetchWord : after (step ((idleWith [.poll]).withFetchWord 32 0x33)) (fun t => t.statusWord == 0x036) =
    true := by decide +kernel
/-- H4: a dropped write. -/
theorem test_write_busy : (busyWith 0x11 1 []).writeReg 0 5 (.arg 0) = { busyWith 0x11 1 [] with ovr := true } :=
  rfl
/-- H6 and H7. -/
theorem test_write_status : ({ State.reset with ovr := true }.writeReg 0 0x100 .status).ovr = false ∧
    ({ State.reset with ovr := true }.writeReg 0 0x0FF .status).ovr = true := by decide +kernel
/-- R90. -/
theorem test_write_cmd : (State.reset.writeReg 7 0x12 .cmd).statusWord = 0x001 ∧
    (State.reset.writeReg 7 0x12 .cmd).lastCmd = 0x12 := by decide +kernel
/-- H3. -/
theorem test_narrow_read : step (idleWith [.read Config.blockBase 2]) = .fault (.busFault Config.blockBase) := by
  simp [step, State.sequencerMoves, State.isBusy, idleWith, State.reset, hostStep, performHostOp, busTarget]

/-! ## The assembler -/

theorem test_parse_unary : parseLine "GROW_TO 30 ; W 0x010".toList = some (some (.unary .growTo 30)) := by decide +kernel
theorem test_parse_wr : parseLine "wr SEED_BUF63, 0xFFFFFFFF".toList = some (some (.wr (.seedBuf 63) 0xFFFFFFFF)) := by
  decide +kernel
theorem test_parse_seed : parseLine "SEED \"a;\\x00\"".toList = some (some (.seed [0x61, 0x3B, 0x00])) := by
  decide +kernel
theorem test_parse_rngLoad : parseLine "RNG_LOAD 1, 0x2, 3,4".toList = some (some (.rngLoad 1 2 3 4)) := by
  decide +kernel
theorem test_parse_bad : parseLine "wr ARG4, 0".toList = none ∧ parseLine "SEED 3".toList = none ∧
    parseLine "cmdw 4294967296".toList = none := by decide +kernel
/-- R89: "hello" packs as SEED_BUF0 = 0x6C6C6568, SEED_BUF1 = 0x0000006F. -/
theorem test_seed_words : seedBufferWrites 0 64 [0x68, 0x65, 0x6C, 0x6C, 0x6F] =
    [.write (Config.blockBase + 0x100 + 4 * 0) 4 0x6C6C6568, .write (Config.blockBase + 0x100 + 4 * (0 + 1)) 4 0x6F] := by
  rfl

/-! ## Witnesses: a state and operands that meet each obligation's hypotheses together -/

/-- The cache after GROW_TO 3 satisfies 10_state.md R23. -/
theorem cacheThree_inv {capacity : Nat} (h : 2 ≤ capacity) : Cache.Inv capacity { primes := [2, 3], hw := 3 } where
  first_entry := rfl
  two_le_hw := by decide
  ascending := by decide
  entries_prime := by
    intro p hp
    rcases List.mem_cons.mp hp with rfl | hp
    · exact ⟨Nat.prime_two, by decide⟩
    · obtain rfl : p = 3 := by simpa using hp
      exact ⟨Nat.prime_three, by decide⟩
  classified := by
    intro k hk hp
    have h3 : k.toNat ≤ 3 := hk
    have h2 := hp.two_le
    have hk' : k.toNat = 2 ∨ k.toNat = 3 := by omega
    rcases hk' with hk' | hk'
    · obtain rfl : k = 2 := BitVec.eq_of_toNat_eq hk'
      exact List.mem_cons_self
    · obtain rfl : k = 3 := BitVec.eq_of_toNat_eq hk'
      exact List.mem_cons_of_mem _ List.mem_cons_self
  fits := h

theorem two_le_primeCapacity : 2 ≤ Config.primeCapacity := le_trans (by decide) Config.least_le_primeCapacity

/-- A block with the cache after GROW_TO 3, operand `n`, NMAX at its greatest, a command accepted. -/
def cachedWith (n : Word) : State :=
  { State.reset with cache := { primes := [2, 3], hw := 3 }, args := #v[n, 0, 0, 0], nmax := 0xFFFFFFFF, phase := .busy }

theorem cachedWith_cacheInv (n : Word) : (cachedWith n).cache.Inv Config.primeCapacity :=
  cacheThree_inv two_le_primeCapacity

theorem cachedWith_inv (n : Word) : (cachedWith n).Inv where
  cache := cachedWith_cacheInv n
  unseeded := fun _ => rfl
  error_code := rfl
  busy_status := fun _ => ⟨rfl, rfl⟩
  idle_hold := fun h => nomatch h
  error_results := fun h => nomatch h
  fresh := fun h => nomatch h

/-- IllegalWordRaisesIllegalCommand: RSV ≠ 0, and an OPCODE beside each edge of the assigned ranges. -/
theorem witness_illegalWord_reserved : (busyWith 0x110 0 []).sequencerMoves = true ∧
    (busyWith 0x110 0 []).lastCmd.toNat / 2 ^ 8 ≠ 0 := by decide
theorem witness_illegalWord_opcode : [0x00, 0x0F, 0x15, 0x1F, 0x24, 0x2F, 0x35, 0xFF].all (fun n =>
    (busyWith (BitVec.ofNat 32 n) 0 []).sequencerMoves && !([0x10, 0x11, 0x12, 0x13, 0x14, 0x20, 0x21, 0x22, 0x23, 0x30,
      0x31, 0x32, 0x33, 0x34].contains ((busyWith (BitVec.ofNat 32 n) 0 []).lastCmd.toNat % 2 ^ 8))) = true := by decide

/-- StepRunsTheAcceptedCommand: with the latency passed and operations pending, and with none pending. -/
theorem witness_stepRuns_hold : (busyWith 0x12 0 [.poll]).phase = .busy ∧ (busyWith 0x12 0 [.poll]).hold = 0 ∧
    decode (busyWith 0x12 0 [.poll]).lastCmd = .ok .isPrime := by decide
theorem witness_stepRuns_host : (busyWith 0x34 5 []).phase = .busy ∧ (busyWith 0x34 5 []).host = [] ∧
    decode (busyWith 0x34 5 []).lastCmd = .ok .nextBounded := by decide

/-- HostMoves, in either phase, for every operation: CommandWriteIsAcceptedWhenIdle, HostReadsReturnTheRegisters,
HostWritesActAsTheirAccessType, PollRepeatsWhileBusy, ResetEventRestoresTheResetState. -/
theorem witness_hostMoves_idle (op : HostOp) : (idleWith [op]).phase = .idle ∧ HostMoves (idleWith [op]) op [] :=
  ⟨rfl, rfl, rfl⟩
theorem witness_hostMoves_busy (op : HostOp) :
    (busyWith 0x11 1 [op]).phase = .busy ∧ HostMoves (busyWith 0x11 1 [op]) op [] :=
  ⟨rfl, rfl, rfl⟩

/-- The reserved range of the reads and writes, at both ends. -/
theorem witness_reserved_edges : (0x044 ≤ 0x044 ∧ 0x044 ≤ 0x07C ∧ 0x044 % 4 = 0) ∧
    (0x044 ≤ 0x07C ∧ 0x07C ≤ 0x07C ∧ 0x07C % 4 = 0) := by decide

/-- NarrowOrMisalignedAccessIsBusFault and AccessOutsideTheWindowIsBusFault: a narrow, a misaligned and an outside access,
each the host's next. -/
theorem witness_excluded_width : (2 ≠ 4) ∧ HostMoves (idleWith [.read 0 2]) (.read 0 2) [] := ⟨by decide, rfl, rfl⟩
theorem witness_excluded_misaligned : (Config.blockBase + 2) % 4 ≠ 0 ∧
    HostMoves (busyWith 0x11 1 [.write (Config.blockBase + 2) 4 0]) (.write (Config.blockBase + 2) 4 0) [] :=
  ⟨by have := Config.blockBase_mod_four; omega, rfl, rfl⟩
theorem witness_excluded_above : Config.blockBase + 0x200 ≤ Config.blockBase + 0x200 ∧
    HostMoves (idleWith [.read (Config.blockBase + 0x200) 4]) (.read (Config.blockBase + 0x200) 4) [] :=
  ⟨le_refl _, rfl, rfl⟩

/-- BusyBlockCommits, WellFormedHostNeverStops, HostCannotDisturbABusyCommand, IdleBlockDoesNothing. -/
theorem witness_hostWf : (busyWith 0x11 1 [.poll]).phase = .busy ∧ (busyWith 0x11 1 [.poll]).hostWf ∧
    HostOp.reset ∉ (busyWith 0x11 1 [.poll]).host := by
  refine ⟨rfl, fun op h => ?_, by decide⟩
  obtain rfl : op = .poll := by simpa [busyWith] using h
  rfl
theorem witness_hostCannotDisturb : (busyWith 0x11 1 [.poll]).sequencerMoves = false ∧
    ¬ (busyWith 0x11 1 [.poll]).resetNext ∧ ∃ t, step (busyWith 0x11 1 [.poll]) = .next t :=
  ⟨rfl, (fun h => absurd h.2 (by decide)), _, rfl⟩
theorem witness_idle : (idleWith []).phase = .idle ∧ (idleWith []).host = [] := ⟨rfl, rfl⟩

/-- EveryStepKeepsTheInvariant and CacheHoldsExactlyThePrimesUpToHw. -/
theorem witness_stepKeepsInv : (cachedWith 0).Inv ∧ ∃ t, step (cachedWith 0) = .next t := ⟨cachedWith_inv 0, _, rfl⟩

/-- CacheOnlyGrows: a step that is no reset and no CACHE_RESET. -/
theorem witness_cacheOnlyGrows : ¬ (cachedWith 0).resetNext ∧
    ¬ ((cachedWith 0).sequencerMoves = true ∧ decode (cachedWith 0).lastCmd = .ok .cacheReset) ∧
    ∃ t, step (cachedWith 0) = .next t :=
  ⟨(fun h => absurd h.1 (by decide)), (fun h => absurd h.2 (by decide)), _, rfl⟩

/-- ErrInfoChangesOnlyAtAnErrorCommit: an illegal word changes ERRINFO. -/
theorem witness_errInfo : ¬ (busyWith 0x112 0 []).resetNext ∧
    ∃ t, step (busyWith 0x112 0 []) = .next t ∧ t.errInfo ≠ (busyWith 0x112 0 []).errInfo :=
  ⟨(fun h => absurd h.1 (by decide)), _, rfl, by decide⟩

/-- CommandsKeepTheHostsRegisters, EnginesDoNotTouchEachOther, UnlistedArgumentsAreIgnored, OnlySeedReadsTheSeedBuffer:
every command goes on. -/
theorem witness_commandNext (i : Instr) (s : State) : ∃ t, exec i s = .next t := by
  cases i <;> exact ⟨_, rfl⟩

/-- InputChecksRaiseTheirErrors, each clause at an edge. -/
theorem witness_inputChecks_max : (withArg 1000000001).nmax < (withArg 1000000001).args[0] := by decide
theorem witness_inputChecks_zero : (withArg 0).args[0] = 0 := by decide
theorem witness_inputChecks_primeAt : (withArg 1).cache.primes.length ≤ (withArg 1).args[0].toNat := by decide
theorem witness_inputChecks_seed : 256 < { State.reset with seedLen := 257 }.seedLen.toNat := by decide
theorem witness_inputChecks_unseeded : (withArg 1000000000).seeded = false ∧ (withArg 1000000000).args[0] ≠ 0 ∧
    (withArg 1000000000).args[0] ≤ (withArg 1000000000).nmax := by decide

/-- GrowToClassifiesEveryIntegerUpToN. -/
theorem witness_growTo : (cachedWith 4).cache.Inv Config.primeCapacity ∧ (cachedWith 4).args[0] ≤ (cachedWith 4).nmax ∧
    Nat.primeCounting (cachedWith 4).args[0].toNat ≤ Config.primeCapacity := by
  refine ⟨cachedWith_cacheInv 4, by decide, le_trans (b := 2) ?_ two_le_primeCapacity⟩
  have : Nat.primeCounting 4 = 2 := by decide
  exact this.le

/-- GrowToKeepsTheGrowthWhenTheCacheIsFull: a block of capacity 1, GROW_TO 3. -/
theorem witness_growToFull : (withArg 3).cache.Inv 1 ∧ (withArg 3).args[0] ≤ (withArg 3).nmax ∧
    1 < Nat.primeCounting (withArg 3).args[0].toNat := by
  refine ⟨Cache.initial_inv (le_refl 1), by decide, ?_⟩
  have : Nat.primeCounting 3 = 2 := by decide
  exact this.symm ▸ (by decide : 1 < 2)

/-- GrowToIsIdempotent: `m` equal to `n`. -/
theorem witness_growToIdempotent : ∃ t, exec .growTo (withArg 2) = .next t ∧ t.err = false ∧
    (2 : Word) ≤ (withArg 2).args[0] := ⟨_, rfl, rfl, by decide⟩

/-- IsPrimeAnswersPrimality, at both ends of the operand range. -/
theorem witness_isPrime_zero : (cachedWith 0).cache.Inv Config.primeCapacity ∧
    (cachedWith 0).args[0] ≤ (cachedWith 0).nmax := ⟨cachedWith_cacheInv 0, by decide⟩
theorem witness_isPrime_greatest : (cachedWith 0xFFFFFFFF).cache.Inv Config.primeCapacity ∧
    (cachedWith 0xFFFFFFFF).args[0] ≤ (cachedWith 0xFFFFFFFF).nmax := ⟨cachedWith_cacheInv _, by decide⟩

/-- ClassifyTellsPrimesFromNonPrimes and PrimeAtGivesTheIthPrime (the last entry). -/
theorem witness_primeAt : (cachedWith 1).cache.Inv 2 ∧
    (cachedWith 1).args[0].toNat < (cachedWith 1).cache.primes.length := ⟨cacheThree_inv (le_refl 2), by decide⟩

/-- FactorizeGivesThePrimeFactorization, FactorizationFitsTheResultRegisters, PhiGivesTheTotient, SigmaGivesTheDivisorSum,
AliquotGivesTheProperDivisorSum, at both ends of the operand range. -/
theorem witness_factorize_one : (cachedWith 1).cache.Inv Config.primeCapacity ∧ (cachedWith 1).args[0] ≠ 0 ∧
    (cachedWith 1).args[0] ≤ (cachedWith 1).nmax := ⟨cachedWith_cacheInv 1, by decide, by decide⟩
theorem witness_factorize_greatest : (cachedWith 0xFFFFFFFF).cache.Inv Config.primeCapacity ∧
    (cachedWith 0xFFFFFFFF).args[0] ≠ 0 ∧ (cachedWith 0xFFFFFFFF).args[0] ≤ (cachedWith 0xFFFFFFFF).nmax :=
  ⟨cachedWith_cacheInv _, by decide, by decide⟩

/-- DigestPaddingIsLeast, DigestScheduleRecurrence, DigestRoundRecurrence. -/
theorem witness_padding : (List.replicate 256 (0 : Byte)).length ≤ 256 := List.length_replicate.le
theorem witness_schedule : (List.replicate 16 (0 : Word)).length = 16 := by decide
theorem witness_round : 0 < 80 ∧ 79 < 80 := by decide

/-- SeedLoadsTheDigestOfTheSeedBytes and EqualSeedsGiveEqualGenerators, at the greatest length. -/
theorem witness_seed : { State.reset with seedLen := 256 }.seedLen.toNat ≤ 256 ∧
    ∃ t, exec .seed { State.reset with seedLen := 256 } = .next t := ⟨by decide, _, rfl⟩

/-- Next32GivesOneDraw, NextFloatCombinesTwoDraws, NextBoundedScalesOneDraw, DrawsDependOnlyOnTheGenerator (their error
clauses have witness_inputChecks_max, _zero and _unseeded). -/
theorem witness_seeded : { loaded with args := #v[1, 0, 0, 0] }.seeded = true ∧
    { loaded with args := #v[1, 0, 0, 0] }.args[0] ≠ 0 ∧
    { loaded with args := #v[1, 0, 0, 0] }.args[0] ≤ { loaded with args := #v[1, 0, 0, 0] }.nmax := by decide

/-- SeedLiteralReachesTheSeedBuffer and StatementsExpandToWellFormedAccesses. -/
theorem witness_seedLiteral : (idleWith (Stmt.seed [0x61]).expand).phase = .idle ∧
    (idleWith (Stmt.seed [0x61]).expand).hold = 0 ∧ [(0x61 : Byte)].length ≤ 256 ∧
    (idleWith (Stmt.seed [0x61]).expand).host = (Stmt.seed [0x61]).expand ++ [] ∧
    WellFormed.stmt (.seed [0x61]) = true := ⟨rfl, rfl, by decide, by simp [idleWith], by decide⟩

end Sys2Proof.Tests
end

