-- ==== Sys2Proof/Proofs/HostWrites.lean ====
section
/-! SUPPORT. What a host write does by the access type of the register it reaches (10_state.md R28, R29; 20_memory.md
R63), and the statement HostWritesActAsTheirAccessType. -/

namespace Sys2Proof.Machine

/-! ## One register write -/

/-- While IDLE a guarded write takes effect (20_memory.md R63(a)). -/
theorem unlessBusy_of_idle {s : State} (body : State → State) (h : s.phase = .idle) : unlessBusy body s = body s := by
  obtain ⟨-, heq⟩ | ⟨hbusy, -⟩ := unlessBusy_cases body s
  · exact heq
  · simp [h] at hbusy

/-- While BUSY a guarded write is dropped and sets OVR (20_memory.md R63(c)). -/
theorem unlessBusy_of_busy {s : State} (body : State → State) (h : s.phase = .busy) :
    unlessBusy body s = { s with ovr := true } := by
  obtain ⟨hidle, -⟩ | ⟨-, heq⟩ := unlessBusy_cases body s
  · simp [h] at hidle
  · exact heq

/-- While BUSY a write to CMD or to an RW register is dropped and sets OVR (20_memory.md R63(c)). -/
theorem State.writeReg_of_busy {s : State} {r : Reg} (delay : Nat) (v : Word) (h : s.phase = .busy)
    (hr : r.access = .command ∨ r.access = .readWrite) : s.writeReg delay v r = { s with ovr := true } := by
  cases r with
  | cmd | arg _ | nmax | seedLen | seedBuf _ => rw [State.writeReg, unlessBusy_of_busy _ h]
  | _ => simp [Reg.access] at hr

/-- A write to an RO register or a reserved word has no effect (10_state.md R29). -/
theorem State.writeReg_of_readOnly {r : Reg} (delay : Nat) (v : Word) (s : State) (hr : r.access = .readOnly) :
    s.writeReg delay v r = s := by
  cases r with
  | cmd | status | arg _ | nmax | seedLen | seedBuf _ => simp [Reg.access] at hr
  | _ => rfl

/-! ## One bus write -/

/-- A bus write at a register's offset is the write of that register, in the state whose host has done
its operation. -/
theorem hostWriteGives_of_writeReg {s t : State} {r : Reg} {v : Word}
    (h : s.hostDone.writeReg (Config.latency s.accepted) v r = { t with host := s.host.tail, hold := s.hold - 1 }) :
    HostWriteGives s r.offset v t := by
  intro rest hm
  rw [hm.step_eq, performHostOp, busTarget_reg]
  simp [h, hm.host_is]

/-- While BUSY a bus write to CMD or to an RW register sets OVR and nothing else (20_memory.md R63(c)). -/
theorem hostWriteGives_of_busy {s : State} (r : Reg) (v : Word) (h : s.phase = .busy)
    (hr : r.access = .command ∨ r.access = .readWrite) : HostWriteGives s r.offset v { s with ovr := true } :=
  hostWriteGives_of_writeReg <| State.writeReg_of_busy _ v (by simpa using h) hr

/-- A bus write to an RO register or a reserved word changes nothing, in either phase (10_state.md R29). -/
theorem hostWriteGives_of_readOnly (s : State) (r : Reg) (v : Word) (hr : r.access = .readOnly) :
    HostWriteGives s r.offset v s :=
  hostWriteGives_of_writeReg <| State.writeReg_of_readOnly _ v _ hr

/-- A bus write to STATUS clears OVR when bit 8 is 1, in either phase (20_memory.md R63(d)). -/
theorem hostWriteGives_status (s : State) (v : Word) :
    HostWriteGives s Reg.status.offset v { s with ovr := if v.getLsbD 8 then false else s.ovr } := by
  refine hostWriteGives_of_writeReg ?_
  have hovr : (s.ovr && !v.getLsbD 8) = if v.getLsbD 8 then false else s.ovr := by
    cases v.getLsbD 8 <;> simp
  rw [← hovr]
  rfl

/-! ## The offsets whose writes are ignored -/

/-- The RO registers of the window but RES (10_state.md R28). -/
def readOnlyRegs : List Reg := [.id, .errInfo, .hw, .pcount, .pcap, .rngA, .rngB, .rngC, .rngD]

theorem readOnlyRegs_access : ∀ r ∈ readOnlyRegs, r.access = .readOnly := by decide

theorem readOnlyRegs_offsets :
    readOnlyRegs.map Reg.offset = [0x000, 0x00C, 0x024, 0x028, 0x02C, 0x030, 0x034, 0x038, 0x03C] := rfl

/-- Each multiple of 4 from 0x044 to 0x07C is the offset of a reserved word (10_state.md R43). -/
theorem exists_reserved_offset {off : Nat} (hlo : 0x044 ≤ off) (hhi : off ≤ 0x07C) (h4 : off % 4 = 0) :
    ∃ i, (Reg.reserved i).offset = off :=
  ⟨⟨(off - 0x044) / 4, by omega⟩, by simp only [Reg.offset]; omega⟩

/-! ## The statement -/

/-- Settles O12: the host write at each offset of the window, by the access type of its register. -/
theorem hostWritesActAsTheirAccessType : Obligations.HostWritesActAsTheirAccessType := by
  intro s v
  refine ⟨fun hidle => ⟨?arg, ?nmax, ?seedLen, ?seedBuf⟩, fun hbusy =>
    ⟨?busyCmd, ?busyArg, ?busyNmax, ?busySeedLen, ?busySeedBuf⟩, hostWriteGives_status s v, ?readOnly, ?reserved, ?res⟩
  case arg =>
    exact fun i => hostWriteGives_of_writeReg (r := .arg i)
      (unlessBusy_of_idle (fun t => { t with args := t.args.set i v }) hidle)
  case nmax =>
    exact hostWriteGives_of_writeReg (r := .nmax)
      (unlessBusy_of_idle (fun t => { t with nmax := v }) hidle)
  case seedLen =>
    exact hostWriteGives_of_writeReg (r := .seedLen)
      (unlessBusy_of_idle (fun t => { t with seedLen := v }) hidle)
  case seedBuf =>
    exact fun j => hostWriteGives_of_writeReg (r := .seedBuf j)
      (unlessBusy_of_idle (fun t => { t with seedBuf := t.seedBuf.set j v }) hidle)
  case busyCmd => exact hostWriteGives_of_busy .cmd v hbusy (.inl rfl)
  case busyArg => exact fun i => hostWriteGives_of_busy (.arg i) v hbusy (.inr rfl)
  case busyNmax => exact hostWriteGives_of_busy .nmax v hbusy (.inr rfl)
  case busySeedLen => exact hostWriteGives_of_busy .seedLen v hbusy (.inr rfl)
  case busySeedBuf => exact fun j => hostWriteGives_of_busy (.seedBuf j) v hbusy (.inr rfl)
  case readOnly =>
    rw [← readOnlyRegs_offsets]
    exact List.forall_mem_map.mpr fun r hr => hostWriteGives_of_readOnly s r v (readOnlyRegs_access r hr)
  case reserved =>
    intro off hlo hhi h4
    obtain ⟨i, rfl⟩ := exists_reserved_offset hlo hhi h4
    exact hostWriteGives_of_readOnly s (.reserved i) v rfl
  case res => exact fun i => hostWriteGives_of_readOnly s (.res i) v rfl

end Sys2Proof.Machine
end

/-! SUPPORT. What a host read returns (20_memory.md R62) and which accesses are excluded (R61), with the statements
HostReadsReturnTheRegisters and NarrowOrMisalignedAccessIsBusFault. -/

namespace Sys2Proof.Machine

/-! ## One bus read -/

/-- A bus read at a register's offset returns that register and leaves the block as it is, in either phase
(20_memory.md R62). -/
theorem hostReadGives_reg (s : State) (r : Reg) : HostReadGives s r.offset (s.readReg r) := by
  intro rest hm
  rw [hm.step_eq, performHostOp, busTarget_reg]
  simp [State.hostDone, State.logRead, hm.host_is]

/-- Settles O10: each offset of the window is the offset of one register, and a read there returns its `readReg`. -/
theorem hostReadsReturnTheRegisters : Obligations.HostReadsReturnTheRegisters := by
  intro s
  have read := hostReadGives_reg s
  refine ⟨read .id, read .cmd, read .status, read .errInfo, fun i => read (.arg i), read .nmax, read .hw,
    read .pcount, read .pcap, read .rngA, read .rngB, read .rngC, read .rngD, read .seedLen, ?reserved,
    fun i => read (.res i), fun j => read (.seedBuf j)⟩
  case reserved =>
    intro off hlo hhi h4
    obtain ⟨i, rfl⟩ := exists_reserved_offset hlo hhi h4
    exact read (.reserved i)

/-! ## Excluded accesses -/

/-- An access that is not 4 bytes wide, or not at a multiple of 4, is not well formed (20_memory.md R61). -/
theorem access_eq_false_of_narrow_or_misaligned (base : Nat) {addr width : Nat}
    (h : width ≠ 4 ∨ addr % 4 ≠ 0) : WellFormed.access base addr width = false := by
  obtain hwidth | halign := h
  · simp [WellFormed.access, hwidth]
  · simp [WellFormed.access, halign]

/-- A read that is not well formed is the fault of its address (20_memory.md R61). -/
theorem HostMoves.read_busFault {s : State} {addr width : Nat} {rest : List HostOp}
    (hm : HostMoves s (.read addr width) rest) (h : WellFormed.access Config.blockBase addr width = false) :
    step s = .fault (.busFault addr) := by
  rw [hm.step_eq, performHostOp, busTarget_eq_none h]

/-- A write that is not well formed is the fault of its address (20_memory.md R61). -/
theorem HostMoves.write_busFault {s : State} {addr width : Nat} {v : Word} {rest : List HostOp}
    (hm : HostMoves s (.write addr width v) rest) (h : WellFormed.access Config.blockBase addr width = false) :
    step s = .fault (.busFault addr) := by
  rw [hm.step_eq, performHostOp, busTarget_eq_none h]

/-- Settles O13: an access of a wrong width or alignment is not well formed, so it reaches no register. -/
theorem narrowOrMisalignedAccessIsBusFault : Obligations.NarrowOrMisalignedAccessIsBusFault := by
  intro s addr width v rest h
  have hexcluded := access_eq_false_of_narrow_or_misaligned Config.blockBase h
  exact ⟨fun hread => hread.read_busFault hexcluded, fun hwrite => hwrite.write_busFault hexcluded⟩

end Sys2Proof.Machine

/-! SUPPORT. Which words the decoder rejects (30_encoding.md R85), with the statement
IllegalWordRaisesIllegalCommand. -/

namespace Sys2Proof

/-! ## The fields of a word -/

/-- The OPCODE field as a number (30_encoding.md R80). -/
theorem toNat_opcodeField (w : Word) : (opcodeField w).toNat = w.toNat % 2 ^ 8 := by
  simp [opcodeField]

/-- The RSV field as a number (30_encoding.md R80). -/
theorem toNat_reservedField (w : Word) : (reservedField w).toNat = w.toNat / 2 ^ 8 := by
  rw [reservedField, BitVec.extractLsb'_toNat, Nat.shiftRight_eq_div_pow]
  exact Nat.mod_eq_of_lt (by omega)

theorem reservedField_ne_zero_iff (w : Word) : reservedField w ≠ 0 ↔ w.toNat / 2 ^ 8 ≠ 0 := by
  rw [← toNat_reservedField]
  exact not_congr BitVec.toNat_eq

/-! ## The opcode map -/

theorem decodeOpcode_opcode (i : Instr) : decodeOpcode (opcode i) = some i := by
  cases i <;> rfl

/-- The opcode map has no entry exactly for the values that are no command's OPCODE (30_encoding.md R83, R85). -/
theorem decodeOpcode_eq_none_iff (op : BitVec 8) : decodeOpcode op = none ↔ op ∉ Instr.all.map opcode := by
  constructor
  · intro hnone hmem
    obtain ⟨i, -, rfl⟩ := List.mem_map.mp hmem
    simp [decodeOpcode_opcode] at hnone
  · intro hop
    simp only [Instr.all, List.map_cons, List.map_nil, opcode, List.mem_cons, not_or] at hop
    simp only [decodeOpcode, hop, if_false]

/-- The values without an entry as numbers, as 30_encoding.md R83 lists them. -/
theorem decodeOpcode_eq_none_iff_toNat (op : BitVec 8) : decodeOpcode op = none ↔
    op.toNat ∉ [0x10, 0x11, 0x12, 0x13, 0x14, 0x20, 0x21, 0x22, 0x23, 0x30, 0x31, 0x32, 0x33, 0x34] := by
  have hvalues : (Instr.all.map opcode).map BitVec.toNat =
      [0x10, 0x11, 0x12, 0x13, 0x14, 0x20, 0x21, 0x22, 0x23, 0x30, 0x31, 0x32, 0x33, 0x34] := rfl
  rw [decodeOpcode_eq_none_iff, ← hvalues,
    List.mem_map_of_injective fun _ _ => BitVec.eq_of_toNat_eq]

/-! ## The illegal words -/

/-- The decoder rejects a word for its RSV field or for its OPCODE field (30_encoding.md R85, R86). -/
theorem decode_error_iff (w : Word) :
    (∃ e, decode w = .error e) ↔ reservedField w ≠ 0 ∨ decodeOpcode (opcodeField w) = none := by
  unfold decode
  split
  · next hrsv => exact ⟨fun _ => .inl hrsv, fun _ => ⟨_, rfl⟩⟩
  · next hrsv =>
    rw [or_iff_right hrsv]
    cases decodeOpcode (opcodeField w) <;> simp

/-- The illegal words as numbers (30_encoding.md R85). -/
theorem decode_error_iff_toNat (w : Word) : (∃ e, decode w = .error e) ↔
    (w.toNat / 2 ^ 8 ≠ 0 ∨
      w.toNat % 2 ^ 8 ∉ [0x10, 0x11, 0x12, 0x13, 0x14, 0x20, 0x21, 0x22, 0x23, 0x30, 0x31, 0x32, 0x33, 0x34]) := by
  rw [decode_error_iff, reservedField_ne_zero_iff, decodeOpcode_eq_none_iff_toNat, toNat_opcodeField]

namespace Machine

/-- When the sequencer moves on a word that the decoder rejects, the step is the error commit of R201
(30_encoding.md R85, R91). -/
theorem step_of_decode_error {s : State} {e : DecodeReject} (hmove : s.sequencerMoves = true)
    (herr : decode s.lastCmd = .error e) :
    step s = .next (afterError s .illegalCommand s.lastCmd s.cache) := by
  obtain ⟨-, i, hok, -⟩ | ⟨-, -, -, hstep⟩ | ⟨hnot, -⟩ | ⟨hnot, -⟩ := step_cases s
  · simp [herr] at hok
  · rw [hstep, raiseError_eq_afterError]
  · simp [hmove] at hnot
  · simp [hmove] at hnot

/-- Settles O4: the rejected words are read off the two fields, and on one of them the step is the error commit. -/
theorem illegalWordRaisesIllegalCommand : Obligations.IllegalWordRaisesIllegalCommand := by
  intro w
  refine ⟨decode_error_iff_toNat w, ?_⟩
  rintro s hmove rfl hillegal
  obtain ⟨e, herr⟩ := (decode_error_iff_toNat s.lastCmd).mpr hillegal
  exact step_of_decode_error hmove herr

end Machine

end Sys2Proof

/-! SUPPORT. The prime cache commands that cannot fail, CACHE_RESET and CLASSIFY (40_prime_cache.md R110, R113), with the
statements CacheResetRestoresTheInitialCache and ClassifyReadsTheCache. -/

namespace Sys2Proof.Machine

/-- Operand ARG0 as the statements write it (30_encoding.md R82). -/
theorem State.arg_zero (s : State) : s.arg 0 = s.args[0] := rfl

/-- A successful commit of a command that has replaced the cache (30_encoding.md R93). -/
theorem commit_withCache (result : List Word) (c : Cache) (s : State) :
    commit result { s with cache := c } = afterCommit s result c s.rng s.seeded :=
  commit_eq_afterCommit result { s with cache := c }

/-- CACHE_RESET is the empty commit with the initial cache (40_prime_cache.md R110). -/
theorem exec_cacheReset (s : State) :
    exec .cacheReset s = .next (afterCommit s [] Cache.initial s.rng s.seeded) := by
  rw [exec, execCacheReset, commit_withCache]

/-- CLASSIFY k is the commit of the class of `k`, with the cache as it was (40_prime_cache.md R113). -/
theorem exec_classify (s : State) :
    exec .classify s = .next (afterCommit s [classOf s.args[0] s.cache] s.cache s.rng s.seeded) := by
  rw [exec, execClassify, commit_eq_afterCommit, State.arg_zero]

/-- Settles O31: the initial cache is the list [2] with hw = 2. -/
theorem cacheResetRestoresTheInitialCache : Obligations.CacheResetRestoresTheInitialCache := by
  intro s
  rw [exec_cacheReset, Cache.initial]

/-- Settles O36: the class is read off `hw` and the entries. -/
theorem classifyReadsTheCache : Obligations.ClassifyReadsTheCache := by
  intro s
  rw [exec_classify, classOf]

end Sys2Proof.Machine

/-! SUPPORT. The PRNG family: the generator step in exact integers (42_prng.md R158) and the commands RNG_LOAD, NEXT32 and
NEXT_BOUNDED (R161, R162, R164), with the statements GeneratorStepRecurrence, Next32GivesOneDraw,
NextBoundedScalesOneDraw and RngLoadLoadsTheArguments. -/

namespace Sys2Proof.Machine

/-! ## The generator -/

/-- A rotation in exact integers: the bits shifted out of the low 32 come back at the bottom (00_scope.md R9). -/
theorem toNat_rotl32 (x : Word) (k : Nat) :
    (rotl32 x k).toNat = ((x.toNat <<< k) ||| (x.toNat >>> (32 - k))) % 2 ^ 32 := by
  have hright : x.toNat >>> (32 - k) < 2 ^ 32 := (Nat.shiftRight_le _ _).trans_lt x.isLt
  rw [rotl32, BitVec.toNat_or, BitVec.toNat_shiftLeft, BitVec.toNat_ushiftRight, Nat.or_mod_two_pow,
    Nat.mod_eq_of_lt hright]

/-- A 32-bit difference is `wrap32` of the exact one, which may be negative (00_scope.md R8). -/
theorem toNat_sub_eq_emod (x y : Word) : ((x - y).toNat : Int) = ((x.toNat : Int) - y.toNat) % 2 ^ 32 := by
  rw [BitVec.toNat_sub]
  omega

theorem Rng.step_a (g : Rng) : g.step.a = g.b ^^^ rotl32 g.c 17 := rfl

theorem Rng.step_b (g : Rng) : g.step.b = g.c + g.d := rfl

theorem Rng.step_c (g : Rng) : g.step.c = g.d + (g.a - rotl32 g.b 27) := rfl

/-- D' is built from the new A (42_prng.md R158). -/
theorem Rng.step_d (g : Rng) : g.step.d = g.step.a + (g.a - rotl32 g.b 27) := rfl

/-- Settles O50: each word of the step is the exact integer expression, with `t` the 32-bit difference. -/
theorem generatorStepRecurrence : Obligations.GeneratorStepRecurrence := by
  intro g
  refine ⟨(g.a - rotl32 g.b 27).toNat, (rotl32 g.b 27).toNat, (rotl32 g.c 17).toNat, toNat_rotl32 g.b 27,
    toNat_rotl32 g.c 17, toNat_sub_eq_emod g.a (rotl32 g.b 27), ?a, ?b, ?c, ?d, rfl⟩
  case a => rw [Rng.step_a, BitVec.toNat_xor]
  case b => rw [Rng.step_b, BitVec.toNat_add]
  case c => rw [Rng.step_c, BitVec.toNat_add]
  case d => rw [Rng.step_d, BitVec.toNat_add]

/-! ## The checks and the commit of the PRNG commands -/

/-- A successful commit of a command that has replaced the generator's state (30_encoding.md R93). -/
theorem commit_withRng (result : List Word) (g : Rng) (seeded : Bool) (s : State) :
    commit result { s with rng := g, seeded := seeded } = afterCommit s result s.cache g seeded :=
  commit_eq_afterCommit result { s with rng := g, seeded := seeded }

theorem checkSeeded_of_seeded {s : State} (body : State → State) (h : s.seeded = true) :
    checkSeeded body s = body s := by
  obtain ⟨hnot, -⟩ | ⟨-, heq⟩ := checkSeeded_cases body s
  · simp [h] at hnot
  · exact heq

theorem checkSeeded_of_unseeded {s : State} (body : State → State) (h : s.seeded = false) :
    checkSeeded body s = afterError s .notSeeded 0 s.cache := by
  obtain ⟨-, heq⟩ | ⟨hseeded, -⟩ := checkSeeded_cases body s
  · rw [heq, raiseError_eq_afterError]
  · simp [h] at hseeded

theorem checkPositiveAtMostNmax_of_invalid {n : Word} {s : State} (body : State → State) (h : n = 0 ∨ s.nmax < n) :
    checkPositiveAtMostNmax n body s = afterError s .invalidInput n s.cache := by
  obtain ⟨-, heq⟩ | ⟨hne, hle, -⟩ := checkPositiveAtMostNmax_cases n body s
  · rw [heq, raiseError_eq_afterError]
  · exact absurd h (not_or.mpr ⟨hne, BitVec.not_lt.mpr hle⟩)

theorem checkPositiveAtMostNmax_of_valid {n : Word} {s : State} (body : State → State) (hne : n ≠ 0)
    (hle : n ≤ s.nmax) : checkPositiveAtMostNmax n body s = body s := by
  obtain ⟨hbad, -⟩ | ⟨-, -, heq⟩ := checkPositiveAtMostNmax_cases n body s
  · exact absurd hbad (not_or.mpr ⟨hne, BitVec.not_lt.mpr hle⟩)
  · exact heq

/-! ## RNG_LOAD and NEXT32 -/

/-- Settles O49: RNG_LOAD is the empty commit with the four operands as the generator's words. -/
theorem rngLoadLoadsTheArguments : Obligations.RngLoadLoadsTheArguments := by
  intro s
  rw [exec, execRngLoad, commit_withRng]
  rfl

/-- NEXT32 of a seeded generator is the commit of one draw (42_prng.md R162). -/
theorem exec_next32_of_seeded {s : State} (h : s.seeded = true) :
    exec .next32 s = .next (afterCommit s [s.rng.step.draw] s.cache s.rng.step true) := by
  rw [exec, execNext32, checkSeeded_of_seeded _ h, commit_withRng, h]

/-- NEXT32 of an unseeded generator is NotSeeded(0) (42_prng.md R162). -/
theorem exec_next32_of_unseeded {s : State} (h : s.seeded = false) :
    exec .next32 s = .next (afterError s .notSeeded 0 s.cache) := by
  rw [exec, execNext32, checkSeeded_of_unseeded _ h]

/-- Settles O52: one case for each value of SEEDED. -/
theorem next32GivesOneDraw : Obligations.Next32GivesOneDraw :=
  fun _ => ⟨exec_next32_of_seeded, exec_next32_of_unseeded⟩

/-! ## NEXT_BOUNDED -/

/-- The scaled draw is below the bound, since the draw is below 2^32 (42_prng.md R164). -/
theorem scaledDraw_lt (v : Word) {max : Word} (h : max ≠ 0) : v.toNat * max.toNat / 2 ^ 32 < max.toNat := by
  have hpos : 0 < max.toNat := Nat.pos_of_ne_zero (BitVec.toNat_ne.mp h)
  exact Nat.div_lt_of_lt_mul (Nat.mul_lt_mul_of_pos_right v.isLt hpos)

/-- NEXT_BOUNDED with an operand out of range is InvalidInput, seeded or not (42_prng.md R164). -/
theorem exec_nextBounded_of_invalid {s : State} (h : s.args[0] = 0 ∨ s.nmax < s.args[0]) :
    exec .nextBounded s = .next (afterError s .invalidInput s.args[0] s.cache) := by
  rw [exec, execNextBounded, State.arg_zero, checkPositiveAtMostNmax_of_invalid _ h]

/-- NEXT_BOUNDED of an unseeded generator is NotSeeded(0) when the operand is in range (42_prng.md R164). -/
theorem exec_nextBounded_of_unseeded {s : State} (hne : s.args[0] ≠ 0) (hle : s.args[0] ≤ s.nmax)
    (h : s.seeded = false) : exec .nextBounded s = .next (afterError s .notSeeded 0 s.cache) := by
  rw [exec, execNextBounded, State.arg_zero, checkPositiveAtMostNmax_of_valid _ hne hle, checkSeeded_of_unseeded _ h]

/-- NEXT_BOUNDED of a seeded generator, with its operand in range, is the commit of one scaled draw (42_prng.md
R164). -/
theorem exec_nextBounded_of_seeded {s : State} (hne : s.args[0] ≠ 0) (hle : s.args[0] ≤ s.nmax)
    (h : s.seeded = true) : exec .nextBounded s =
      .next (afterCommit s [boundedDraw s.rng.step.draw s.args[0]] s.cache s.rng.step true) := by
  rw [exec, execNextBounded, State.arg_zero, checkPositiveAtMostNmax_of_valid _ hne hle, checkSeeded_of_seeded _ h,
    commit_withRng, h]

/-- Settles O56: the three cases of the checks, and the scaled draw is below the operand because the operand is
positive. -/
theorem nextBoundedScalesOneDraw : Obligations.NextBoundedScalesOneDraw := by
  intro s
  refine ⟨exec_nextBounded_of_invalid, exec_nextBounded_of_unseeded, fun hne hle hseeded => ?seeded⟩
  case seeded => exact ⟨_, rfl, scaledDraw_lt _ hne, exec_nextBounded_of_seeded hne hle hseeded⟩

end Sys2Proof.Machine

/-! SUPPORT. The commands on an operand that their input check rejects, and the draws of an unseeded generator
(60_exceptions.md R202), with the statement InputChecksRaiseTheirErrors. -/

namespace Sys2Proof.Machine

/-! ## ARG0 above NMAX: GROW_TO and IS_PRIME -/

theorem checkAtMostNmax_of_invalid {n : Word} {s : State} (body : State → State) (h : s.nmax < n) :
    checkAtMostNmax n body s = afterError s .invalidInput n s.cache := by
  obtain ⟨-, heq⟩ | ⟨hle, -⟩ := checkAtMostNmax_cases n body s
  · rw [heq, raiseError_eq_afterError]
  · exact absurd h (BitVec.not_lt.mpr hle)

theorem exec_growTo_of_invalid {s : State} (h : s.nmax < s.args[0]) :
    exec .growTo s = .next (afterError s .invalidInput s.args[0] s.cache) := by
  rw [exec, execGrowTo, growToCommand, State.arg_zero, checkAtMostNmax_of_invalid _ h]

theorem exec_isPrime_of_invalid {s : State} (h : s.nmax < s.args[0]) :
    exec .isPrime s = .next (afterError s .invalidInput s.args[0] s.cache) := by
  rw [exec, execIsPrime, isPrimeCommand, State.arg_zero, checkAtMostNmax_of_invalid _ h]

/-! ## ARG0 zero or above NMAX: the factorizer commands -/

/-- The commands of 41_factorizer.md R135 to R138. -/
def factorizerInstrs : List Instr := [.factorize, .phi, .sigma, .aliquot]

/-- The check is made before the factorization, so neither the result nor the capacity matters (41_factorizer.md
R135). -/
theorem factorizerCommand_of_invalid {s : State} (result : Nat → List (Nat × Nat) → List Word) (capacity : Nat)
    (h : s.args[0] = 0 ∨ s.nmax < s.args[0]) :
    factorizerCommand result capacity s = afterError s .invalidInput s.args[0] s.cache := by
  rw [factorizerCommand, State.arg_zero, checkPositiveAtMostNmax_of_invalid _ h]

/-- Each of the four factorizer commands is a `factorizerCommand`. -/
theorem exec_factorizer_eq {i : Instr} (hi : i ∈ factorizerInstrs) :
    ∃ result, ∀ s, exec i s = .next (factorizerCommand result Config.primeCapacity s) := by
  simp only [factorizerInstrs, List.mem_cons, List.not_mem_nil, or_false] at hi
  obtain rfl | rfl | rfl | rfl := hi <;> exact ⟨_, fun _ => rfl⟩

theorem exec_factorizer_of_invalid {i : Instr} (hi : i ∈ factorizerInstrs) {s : State}
    (h : s.args[0] = 0 ∨ s.nmax < s.args[0]) :
    exec i s = .next (afterError s .invalidInput s.args[0] s.cache) := by
  obtain ⟨result, heq⟩ := exec_factorizer_eq hi
  rw [heq, factorizerCommand_of_invalid result _ h]

/-! ## PRIME_AT and SEED -/

/-- PRIME_AT i is InvalidInput(i) when there is no entry `i` (40_prime_cache.md R114). -/
theorem exec_primeAt_of_invalid {s : State} (h : s.cache.primes.length ≤ s.args[0].toNat) :
    exec .primeAt s = .next (afterError s .invalidInput s.args[0] s.cache) := by
  rw [exec, execPrimeAt, State.arg_zero, List.getElem?_eq_none h, raiseError_eq_afterError]

/-- SEED is InvalidInput(SEED_LEN) when the length is above SEED_CAP (42_prng.md R160). -/
theorem exec_seed_of_invalid {s : State} (h : 256 < s.seedLen.toNat) :
    exec .seed s = .next (afterError s .invalidInput s.seedLen s.cache) := by
  have hcap : Config.seedCap < s.seedLen.toNat := h
  rw [exec, execSeed, if_pos hcap, raiseError_eq_afterError]

/-! ## NEXT_FLOAT -/

/-- NEXT_FLOAT of an unseeded generator is NotSeeded(0) (42_prng.md R163). -/
theorem exec_nextFloat_of_unseeded {s : State} (h : s.seeded = false) :
    exec .nextFloat s = .next (afterError s .notSeeded 0 s.cache) := by
  rw [exec, execNextFloat, checkSeeded_of_unseeded _ h]

/-! ## The statement -/

/-- Settles O30: one case for each row of the table of R202. -/
theorem inputChecksRaiseTheirErrors : Obligations.InputChecksRaiseTheirErrors := by
  intro s
  refine ⟨?aboveNmax, ?zeroOrAboveNmax, exec_primeAt_of_invalid, exec_seed_of_invalid,
    fun hseeded => ⟨exec_next32_of_unseeded hseeded, exec_nextFloat_of_unseeded hseeded,
      fun hne hle => exec_nextBounded_of_unseeded hne hle hseeded⟩, ?noError⟩
  case aboveNmax =>
    intro i hi h
    simp only [List.mem_cons, List.not_mem_nil, or_false] at hi
    obtain rfl | rfl := hi
    · exact exec_growTo_of_invalid h
    · exact exec_isPrime_of_invalid h
  case zeroOrAboveNmax =>
    intro i hi h
    obtain hfactorizer | hlast := (List.mem_append (s := factorizerInstrs)).mp hi
    · exact exec_factorizer_of_invalid hfactorizer h
    · obtain rfl := List.mem_singleton.mp hlast
      exact exec_nextBounded_of_invalid h
  case noError =>
    intro i hi
    simp only [List.mem_cons, List.not_mem_nil, or_false] at hi
    obtain rfl | rfl | rfl := hi
    · exact ⟨_, exec_cacheReset s, rfl⟩
    · exact ⟨_, exec_classify s, rfl⟩
    · exact ⟨_, rngLoadLoadsTheArguments s, rfl⟩

end Sys2Proof.Machine

/-! SUPPORT. What the registers read in the reset state (70_reset_and_hazards.md R230), with the statement
ResetValues. -/

namespace Sys2Proof.Machine

/-- PCAP reads the capacity itself in every state: the capacity fits in 32 bits (10_state.md R38). -/
theorem State.toNat_readReg_pcap (s : State) : (s.readReg .pcap).toNat = Config.primeCapacity := by
  rw [State.readReg, BitVec.toNat_ofNat, Nat.mod_eq_of_lt Config.primeCapacity_lt]

theorem reset_readReg_status : State.reset.readReg .status = 0 := by decide

theorem reset_readReg_arg (i : Fin 4) : State.reset.readReg (.arg i) = 0 :=
  Vector.getElem_replicate i.isLt

theorem reset_readReg_res (i : Fin 32) : State.reset.readReg (.res i) = 0 :=
  Vector.getElem_replicate i.isLt

theorem reset_readReg_seedBuf (j : Fin 64) : State.reset.readReg (.seedBuf j) = 0 :=
  Vector.getElem_replicate j.isLt

/-- Settles O17: a register that shows one field of the state reads that field of `State.reset`, and HW and PCOUNT show
the initial cache [2]; STATUS is assembled from several fields, ARG, RES and SEED_BUF are constant vectors, and PCAP is
the capacity of the instance. -/
theorem resetValues : Obligations.ResetValues := by
  refine ⟨?primes, ?hwField, ?count, ?rng, ?seeded, ?phase, ?cmd, reset_readReg_status, ?errInfo, reset_readReg_arg,
    ?nmax, ?nmaxDefault, ?hw, ?pcount, State.toNat_readReg_pcap _, ?rngA, ?rngB, ?rngC, ?rngD, ?seedLen,
    reset_readReg_res, reset_readReg_seedBuf, ?id⟩
  all_goals rfl

end Sys2Proof.Machine

/-! SUPPORT. The decoder against the encoder (30_encoding.md R80, R83, R86), with the statements
DecodeAndEncodeAgree and OpcodeMapWordsDecode. -/

namespace Sys2Proof

/-- The opcode map and the OPCODE of each command are inverse to each other (30_encoding.md R83). -/
theorem decodeOpcode_eq_some_iff (op : BitVec 8) (i : Instr) : decodeOpcode op = some i ↔ opcode i = op := by
  constructor
  · intro hsome
    have hassigned : op ∈ Instr.all.map opcode := by
      by_contra hnot
      simp [(decodeOpcode_eq_none_iff op).mpr hnot] at hsome
    obtain ⟨j, -, rfl⟩ := List.mem_map.mp hassigned
    rw [decodeOpcode_opcode, Option.some.injEq] at hsome
    rw [hsome]
  · rintro rfl
    exact decodeOpcode_opcode i

/-- A word decodes to a command exactly when its RSV field is 0 and its OPCODE field is the command's (30_encoding.md
R86). -/
theorem decode_eq_ok_iff (w : Word) (i : Instr) :
    decode w = .ok i ↔ reservedField w = 0 ∧ opcodeField w = opcode i := by
  rw [eq_comm (a := opcodeField w), ← decodeOpcode_eq_some_iff]
  unfold decode
  split
  · next hrsv => simp [show reservedField w ≠ 0#24 from hrsv]
  · next hrsv =>
    rw [not_not] at hrsv
    cases decodeOpcode (opcodeField w) <;> simp [hrsv]

/-- A concatenation as a number: the left field counts in units of the right one's range. -/
theorem toNat_append_eq_add {v w : Nat} (x : BitVec v) (y : BitVec w) :
    (x ++ y).toNat = 2 ^ w * x.toNat + y.toNat := by
  rw [BitVec.toNat_append, Nat.shiftLeft_eq, Nat.mul_comm, Nat.two_pow_add_eq_or_of_lt y.isLt]

/-- A word is its RSV field above its OPCODE field (30_encoding.md R80). -/
theorem reservedField_append_opcodeField (w : Word) : (reservedField w ++ opcodeField w : Word) = w := by
  apply BitVec.eq_of_toNat_eq
  rw [toNat_append_eq_add, toNat_reservedField, toNat_opcodeField, Nat.div_add_mod]

/-- The command word of a command by its two fields (30_encoding.md R80, R83). -/
theorem fields_encode (i : Instr) : reservedField (encode i) = 0 ∧ opcodeField (encode i) = opcode i := by
  cases i <;> decide

/-- Settles O2: a word is determined by its two fields, and both directions speak of them. -/
theorem decodeAndEncodeAgree : Obligations.DecodeAndEncodeAgree := by
  intro w i
  rw [decode_eq_ok_iff]
  constructor
  · rintro ⟨hrsv, hop⟩
    rw [← reservedField_append_opcodeField w, hrsv, hop, encode]
    rfl
  · rintro rfl
    exact fields_encode i

theorem decode_encode (i : Instr) : decode (encode i) = .ok i := (decodeAndEncodeAgree _ _).mpr rfl

/-- Settles O3: each word of the map is the encoding of its command. -/
theorem opcodeMapWordsDecode : Obligations.OpcodeMapWordsDecode :=
  ⟨decode_encode .cacheReset, decode_encode .growTo, decode_encode .isPrime, decode_encode .classify,
    decode_encode .primeAt, decode_encode .factorize, decode_encode .phi, decode_encode .sigma,
    decode_encode .aliquot, decode_encode .seed, decode_encode .rngLoad, decode_encode .next32,
    decode_encode .nextFloat, decode_encode .nextBounded⟩

end Sys2Proof

/-! SUPPORT. The step: who moves, and what one host operation does (00_scope.md R3, 20_memory.md R62 to R66,
30_encoding.md R87, R90, 70_reset_and_hazards.md R231, R245). -/

namespace Sys2Proof.Machine

/-! ## Who moves -/

theorem State.sequencerMoves_iff (s : State) :
    s.sequencerMoves = true ↔ s.phase = .busy ∧ (s.hold = 0 ∨ s.host = []) := by
  simp [State.sequencerMoves, State.isBusy_eq]

theorem State.sequencerMoves_of_idle {s : State} (h : s.phase = .idle) : s.sequencerMoves = false := by
  simp [State.sequencerMoves, State.isBusy_eq, h]

/-- While IDLE the host moves, if it has anything to do. -/
theorem hostMoves_of_idle {s : State} {op : HostOp} {rest : List HostOp} (hphase : s.phase = .idle)
    (hhost : s.host = op :: rest) : HostMoves s op rest :=
  ⟨hhost, State.sequencerMoves_of_idle hphase⟩

/-- A BUSY block whose sequencer does not move yet has a host operation to come before the commit. -/
theorem hostMoves_of_busy {s : State} (hbusy : s.phase = .busy) (hnot : s.sequencerMoves = false) :
    s.hold ≠ 0 ∧ ∃ op rest, HostMoves s op rest := by
  have hwait : ¬ (s.hold = 0 ∨ s.host = []) := fun h => by
    simp [(State.sequencerMoves_iff s).mpr ⟨hbusy, h⟩] at hnot
  obtain ⟨hhold, hhost⟩ := not_or.mp hwait
  obtain ⟨op, rest, hcons⟩ := List.exists_cons_of_ne_nil hhost
  exact ⟨hhold, op, rest, hcons, hnot⟩

theorem step_of_sequencerMoves {s : State} {i : Instr} (hmove : s.sequencerMoves = true)
    (hdecode : decode s.lastCmd = .ok i) : step s = exec i s := by
  simp [step, hmove, sequencerStep, hdecode]

/-- Settles O5: the sequencer moves, and the accepted word is the command's. -/
theorem stepRunsTheAcceptedCommand : Obligations.StepRunsTheAcceptedCommand := by
  intro s i hbusy hready hdecode
  exact step_of_sequencerMoves ((State.sequencerMoves_iff s).mpr ⟨hbusy, hready⟩) hdecode

/-- Settles O8: neither agent moves. -/
theorem idleBlockDoesNothing : Obligations.IdleBlockDoesNothing := by
  intro s hidle hhost
  simp [step, State.sequencerMoves_of_idle hidle, hostStep, hhost]

/-! ## One host operation -/

/-- A 4-byte write at a register's own address is the write of that register (20_memory.md R63). -/
theorem HostMoves.step_writeReg {s : State} {r : Reg} {v : Word} {rest : List HostOp}
    (hm : HostMoves s (.write (Config.blockBase + r.offset) 4 v) rest) :
    step s = .next (s.hostDone.writeReg (Config.latency s.accepted) v r) := by
  rw [hm.step_eq, performHostOp, busTarget_reg]

/-- Settles O6: CMD is at offset 4, and its write is guarded by the phase. -/
theorem commandWriteIsAcceptedWhenIdle : Obligations.CommandWriteIsAcceptedWhenIdle := by
  intro s w rest hm
  have hstep := hm.step_writeReg (r := .cmd)
  refine ⟨fun hidle => ?idle, fun hbusy => ?busy⟩
  case idle =>
    rw [hstep, State.writeReg, unlessBusy_of_idle _ (by simpa using hidle)]
    simp [acceptCommand, State.hostDone, hm.host_is]
  case busy =>
    rw [hstep, State.writeReg_of_busy _ w (by simpa using hbusy) (.inl rfl)]
    simp [State.hostDone, hm.host_is]

/-- Settles O15: a poll logs STATUS in either phase, and only while IDLE is it done. -/
theorem pollRepeatsWhileBusy : Obligations.PollRepeatsWhileBusy := by
  intro s rest hm
  rw [hm.step_eq]
  refine ⟨fun hbusy => ?busy, fun hidle => ?idle⟩
  case busy => simp [performHostOp, State.isBusy_eq, hbusy, State.logRead]
  case idle => simp [performHostOp, State.isBusy_eq, hidle, State.logRead, State.hostDone, hm.host_is]

/-- Settles O16: the reset event is the reset state but for the host's fields. -/
theorem resetEventRestoresTheResetState : Obligations.ResetEventRestoresTheResetState := by
  intro s rest hm
  rw [hm.step_eq, performHostOp, hm.host_is]
  rfl

/-- An access outside the 512 bytes of the window is not well formed (20_memory.md R60). -/
theorem access_eq_false_of_outside {base addr : Nat} (width : Nat) (h : addr < base ∨ base + 0x200 ≤ addr) :
    WellFormed.access base addr width = false := by
  have hwindow : Config.windowBytes = 512 := rfl
  by_contra hwf
  simp only [WellFormed.access, Bool.not_eq_false, Bool.and_eq_true, decide_eq_true_eq] at hwf
  obtain ⟨⟨-, hlow⟩, hhigh⟩ := hwf
  omega

/-- Settles O14: an access outside the window is not well formed, so it reaches no register. -/
theorem accessOutsideTheWindowIsBusFault : Obligations.AccessOutsideTheWindowIsBusFault := by
  intro s addr width v rest h
  have hexcluded := access_eq_false_of_outside width h
  exact ⟨fun hread => hread.read_busFault hexcluded, fun hwrite => hwrite.write_busFault hexcluded⟩

/-! ## STATUS -/

/-- The STATUS word as a number, its fields weighted by their places (10_state.md R32). -/
theorem State.toNat_statusWord (s : State) : s.statusWord.toNat =
    s.isBusy.toNat + 2 * s.done.toNat + 4 * s.err.toNat + 16 * (errCodeField s.errCode).toNat + 256 * s.ovr.toNat +
      512 * s.seeded.toNat := by
  simp only [State.statusWord, toNat_append_eq_add, BitVec.toNat_ofBool, BitVec.toNat_ofNat]
  omega

theorem getLsbD_of_toNat {w : Word} {i : Nat} {b : Bool} (h : w.toNat / 2 ^ i % 2 = b.toNat) : w.getLsbD i = b := by
  rw [BitVec.getLsbD, Nat.testBit_eq_decide_div_mod_eq, h]
  cases b <;> rfl

/-- The ERRCODE values of 60_exceptions.md R200. -/
theorem toNat_errCodeField (e : Option ErrKind) : (errCodeField e).toNat =
    match e with
    | none => 0
    | some .invalidInput => 1
    | some .illegalCommand => 2
    | some .notSeeded => 3
    | some .cacheFull => 4 := by
  rcases e with _ | (_ | _ | _ | _) <;> rfl

/-- Settles O11: each field is read off the number at its place. -/
theorem statusWordShowsItsFields : Obligations.StatusWordShowsItsFields := by
  intro s
  have hword := s.toNat_statusWord
  have hbusy := s.isBusy.toNat_le
  have hdone := s.done.toNat_le
  have herr := s.err.toNat_le
  have hcode := (errCodeField s.errCode).isLt
  have hovr := s.ovr.toNat_le
  have hseeded := s.seeded.toNat_le
  have hreserved : false.toNat = 0 := rfl
  rw [← s.isBusy_eq]
  refine ⟨getLsbD_of_toNat ?_, getLsbD_of_toNat ?_, getLsbD_of_toNat ?_, getLsbD_of_toNat ?_,
    Eq.trans ?_ (toNat_errCodeField s.errCode), getLsbD_of_toNat ?_, getLsbD_of_toNat ?_, ?_⟩
  all_goals omega

end Sys2Proof.Machine

/-! SUPPORT. The integer square root of 00_scope.md R8, with the statement CeilSqrtIsTheLeastRoot. -/

namespace Sys2Proof.Machine

/-- The bit search keeps its bracket: if the greatest `r` with `r * r < k` lies in `s ..< s + 2 ^ b`, the search finds
it. -/
theorem rootBelow_spec (k b s : Nat) (hlow : s * s < k) (hhigh : k ≤ (s + 2 ^ b) * (s + 2 ^ b)) :
    rootBelow k b s * rootBelow k b s < k ∧ k ≤ (rootBelow k b s + 1) * (rootBelow k b s + 1) := by
  induction b generalizing s with
  | zero => exact ⟨hlow, hhigh⟩
  | succ b ih =>
    rw [rootBelow]
    split
    · next hbit =>
      refine ih _ hbit ?_
      rwa [Nat.add_assoc, ← Nat.two_mul, ← Nat.pow_succ']
    · next hbit => exact ih _ hlow (Nat.not_lt.mp hbit)

/-- `ceilSqrt k` is the lower adjoint of squaring (00_scope.md R8). -/
theorem ceilSqrt_le_iff (k t : Nat) : ceilSqrt k ≤ t ↔ k ≤ t * t := by
  unfold ceilSqrt
  split
  · next hzero => simp [hzero]
  · next hpos =>
    have hhigh : k ≤ (0 + 2 ^ (Nat.log2 k + 1)) * (0 + 2 ^ (Nat.log2 k + 1)) := by
      rw [Nat.zero_add]
      exact Nat.lt_log2_self.le.trans (Nat.le_mul_self _)
    obtain ⟨hbelow, habove⟩ := rootBelow_spec k (Nat.log2 k + 1) 0 (by omega) hhigh
    refine ⟨fun hle => habove.trans (Nat.mul_self_le_mul_self hle), fun hle => ?_⟩
    exact Nat.mul_self_lt_mul_self_iff.mp (hbelow.trans_le hle)

theorem le_ceilSqrt_mul_self (k : Nat) : k ≤ ceilSqrt k * ceilSqrt k := (ceilSqrt_le_iff k _).mp le_rfl

/-- Settles O1: both halves are the adjunction with squaring. -/
theorem ceilSqrtIsTheLeastRoot : Obligations.CeilSqrtIsTheLeastRoot :=
  fun k => ⟨le_ceilSqrt_mul_self k, fun t => (ceilSqrt_le_iff k t).mpr⟩

theorem ceilSqrt_le_self (k : Nat) : ceilSqrt k ≤ k := (ceilSqrt_le_iff k k).mpr (Nat.le_mul_self k)

theorem ceilSqrt_mono {k m : Nat} (h : k ≤ m) : ceilSqrt k ≤ ceilSqrt m :=
  (ceilSqrt_le_iff k _).mpr (h.trans (le_ceilSqrt_mul_self m))

/-- The root of a 32-bit operand is at most 65536 (00_scope.md R8). -/
theorem ceilSqrt_toNat_le (n : Word) : ceilSqrt n.toNat ≤ 65536 := (ceilSqrt_le_iff _ _).mpr (by omega)

end Sys2Proof.Machine

/-! SUPPORT. What a command can do, said once for all fourteen: the shape of its end, the cache and the generator it
leaves (30_encoding.md R93, 60_exceptions.md R201, 10_state.md R20, R24, R25). -/

namespace Sys2Proof.Machine

/-! ## Growth of the cache -/

/-- The cache after a computation that may grow it. -/
def Grown.cache {α : Type} : Grown α → Cache
  | .done _ c => c
  | .full _ c => c

/-- `c'` is what GrowTo of some 32-bit bound leaves of `c`, whether it finished or not (40_prime_cache.md R101). -/
def GrowthOf (c c' : Cache) : Prop := ∃ n < 2 ^ 32, (growTo Config.primeCapacity n c).cache = c'

/-- GrowTo of a bound that is classified already does nothing (40_prime_cache.md R101). -/
theorem growTo_of_le {capacity n : Nat} {c : Cache} (h : n ≤ c.hw.toNat) : growTo capacity n c = .done () c :=
  if_pos h

theorem GrowthOf.refl (c : Cache) : GrowthOf c c :=
  ⟨0, by decide, by rw [growTo_of_le (Nat.zero_le _), Grown.cache]⟩

/-- Growth only appends entries and does not lower `hw` (40_prime_cache.md R104). -/
theorem GrowthOf.prefix_and_hw_le {c c' : Cache} (h : GrowthOf c c') :
    c.primes <+: c'.primes ∧ c.hw.toNat ≤ c'.hw.toNat := by
  obtain ⟨n, hn, rfl⟩ := h
  obtain ⟨-, heq⟩ | ⟨hlt, c', heq, hprefix, hhw⟩ | ⟨hlt, j, c', heq, hprefix, hj, -, hhw, -⟩ :=
    growTo_cases Config.primeCapacity hn c
  · rw [heq, Grown.cache]
    exact ⟨List.prefix_refl _, le_rfl⟩
  · rw [heq, Grown.cache]
    exact ⟨hprefix, by omega⟩
  · rw [heq, Grown.cache]
    exact ⟨hprefix, by omega⟩

/-- IS_PRIME's computation grows the cache by GrowTo or not at all (40_prime_cache.md R102). -/
theorem growthOf_isPrimeCore (n : Word) (c : Cache) :
    GrowthOf c (isPrimeCore Config.primeCapacity n c).cache := by
  unfold isPrimeCore
  split
  · exact GrowthOf.refl c
  · split
    · exact GrowthOf.refl c
    · refine ⟨ceilSqrt n.toNat, (ceilSqrt_toNat_le n).trans_lt (by decide), ?_⟩
      cases growTo Config.primeCapacity (ceilSqrt n.toNat) c <;> rfl

/-- The factorizer's computation grows the cache by GrowTo (41_factorizer.md R130). -/
theorem growthOf_factorize (n : Word) (c : Cache) :
    GrowthOf c (factorize Config.primeCapacity n.toNat c).cache := by
  refine ⟨ceilSqrt n.toNat, (ceilSqrt_toNat_le n).trans_lt (by decide), ?_⟩
  unfold factorize
  cases growTo Config.primeCapacity (ceilSqrt n.toNat) c <;> rfl

/-! ## The effect of a command -/

/-- The commands that may grow the cache (40_prime_cache.md R111, R112, 41_factorizer.md R130). -/
def growingInstrs : List Instr := [.growTo, .isPrime] ++ factorizerInstrs

/-- The commands that may change the generator (42_prng.md R160 to R164). -/
def prngInstrs : List Instr := [.seed, .rngLoad, .next32, .nextFloat, .nextBounded]

/-- What a command may leave of the cache at a successful commit. -/
inductive CacheEffect (i : Instr) (c : Cache) : Cache → Prop
  | kept : CacheEffect i c c
  | reset (h : i = .cacheReset) : CacheEffect i c Cache.initial
  | grown {c' : Cache} (h : i ∈ growingInstrs) (hc : GrowthOf c c') : CacheEffect i c c'

/-- What a command may leave of the cache at an error commit (60_exceptions.md R201). -/
inductive ErrorCacheEffect (i : Instr) (e : ErrKind) (c : Cache) : Cache → Prop
  | kept : ErrorCacheEffect i e c c
  | full {c' : Cache} (he : e = .cacheFull) (h : i ∈ growingInstrs) (hc : GrowthOf c c') : ErrorCacheEffect i e c c'

/-- What a command may leave of the generator at a successful commit. -/
inductive RngEffect (i : Instr) (s : State) : Rng → Bool → Prop
  | kept : RngEffect i s s.rng s.seeded
  | seeded (g : Rng) (h : i ∈ prngInstrs) : RngEffect i s g true

/-- What a command may leave (30_encoding.md R93, 60_exceptions.md R201). -/
inductive Effect (i : Instr) (s : State) : State → Prop
  | commit {c : Cache} {g : Rng} {b : Bool} (result : List Word) (hc : CacheEffect i s.cache c)
      (hg : RngEffect i s g b) : Effect i s (afterCommit s result c g b)
  | error {c : Cache} (e : ErrKind) (info : Word) (hc : ErrorCacheEffect i e s.cache c) :
      Effect i s (afterError s e info c)

section Shapes

variable {i : Instr} {s : State}

theorem Effect.raiseError (e : ErrKind) (info : Word) : Effect i s (raiseError e info s) :=
  .error e info .kept

theorem Effect.checkAtMostNmax {n : Word} {body : State → State} (h : Effect i s (body s)) :
    Effect i s (checkAtMostNmax n body s) := by
  obtain ⟨-, heq⟩ | ⟨-, heq⟩ := checkAtMostNmax_cases n body s
  · exact heq ▸ Effect.raiseError _ _
  · exact heq ▸ h

theorem Effect.checkPositiveAtMostNmax {n : Word} {body : State → State} (h : Effect i s (body s)) :
    Effect i s (checkPositiveAtMostNmax n body s) := by
  obtain ⟨-, heq⟩ | ⟨-, -, heq⟩ := checkPositiveAtMostNmax_cases n body s
  · exact heq ▸ Effect.raiseError _ _
  · exact heq ▸ h

theorem Effect.checkSeeded {body : State → State} (h : s.seeded = true → Effect i s (body s)) :
    Effect i s (checkSeeded body s) := by
  obtain ⟨-, heq⟩ | ⟨hseeded, heq⟩ := checkSeeded_cases body s
  · exact heq ▸ Effect.raiseError _ _
  · exact heq ▸ h hseeded

theorem Effect.finishGrown {α : Type} {result : α → List Word} {g : Grown α} (hi : i ∈ growingInstrs)
    (hg : GrowthOf s.cache g.cache) : Effect i s (finishGrown result g s) := by
  cases g with
  | done a c => exact .commit (result a) (.grown hi hg) .kept
  | full k c => exact .error .cacheFull k (.full rfl hi hg)

/-- A draw is taken only by a seeded generator, which stays seeded (42_prng.md R162 to R164). -/
theorem Effect.commit_draw (result : List Word) (g : Rng) (hi : i ∈ prngInstrs) (hseeded : s.seeded = true) :
    Effect i s (Machine.commit result { s with rng := g }) := by
  rw [commit_withRng, hseeded]
  exact .commit result .kept (.seeded g hi)

theorem Effect.factorizerCommand (result : Nat → List (Nat × Nat) → List Word) (hi : i ∈ growingInstrs) :
    Effect i s (factorizerCommand result Config.primeCapacity s) :=
  Effect.checkPositiveAtMostNmax (Effect.finishGrown hi (growthOf_factorize _ _))

end Shapes

/-- Every command goes on from every state, to one of the ends that `Effect` lists. -/
theorem exec_effect (i : Instr) (s : State) : ∃ t, exec i s = .next t ∧ Effect i s t := by
  cases i with
  | cacheReset => exact ⟨_, exec_cacheReset s, .commit [] (.reset rfl) .kept⟩
  | growTo =>
    exact ⟨_, rfl, Effect.checkAtMostNmax (Effect.finishGrown (by decide) ⟨_, (s.arg 0).isLt, rfl⟩)⟩
  | isPrime => exact ⟨_, rfl, Effect.checkAtMostNmax (Effect.finishGrown (by decide) (growthOf_isPrimeCore _ _))⟩
  | classify => exact ⟨_, exec_classify s, .commit _ .kept .kept⟩
  | primeAt =>
    refine ⟨_, rfl, ?_⟩
    split
    · exact .commit _ .kept .kept
    · exact .raiseError _ _
  | factorize | phi | sigma | aliquot => exact ⟨_, rfl, Effect.factorizerCommand _ (by decide)⟩
  | seed =>
    refine ⟨_, rfl, ?_⟩
    split
    · exact .raiseError _ _
    · exact .commit _ .kept (.seeded _ (by decide))
  | rngLoad => exact ⟨_, rngLoadLoadsTheArguments s, .commit _ .kept (.seeded _ (by decide))⟩
  | next32 => exact ⟨_, rfl, Effect.checkSeeded (Effect.commit_draw _ _ (by decide))⟩
  | nextFloat => exact ⟨_, rfl, Effect.checkSeeded (Effect.commit_draw _ _ (by decide))⟩
  | nextBounded =>
    exact ⟨_, rfl, Effect.checkPositiveAtMostNmax (Effect.checkSeeded (Effect.commit_draw _ _ (by decide)))⟩

/-- The inversion form of `exec_effect`. -/
theorem effect_of_exec {i : Instr} {s t : State} (h : exec i s = .next t) : Effect i s t := by
  obtain ⟨t', heq, heffect⟩ := exec_effect i s
  rw [h, Host.Outcome.next.injEq] at heq
  exact heq ▸ heffect

/-! ## What every command keeps and leaves -/

/-- Settles O24: the two constructors of `Effect` are the two ends. -/
theorem everyCommandEndsInACommit : Obligations.EveryCommandEndsInACommit := by
  intro i s
  obtain ⟨t, hexec, heffect⟩ := exec_effect i s
  refine ⟨t, hexec, ?_⟩
  cases heffect with
  | commit result hc hg => exact ⟨rfl, rfl, rfl, .inl ⟨rfl, rfl, rfl⟩⟩
  | error e info hc =>
    refine ⟨rfl, rfl, rfl, .inr ⟨rfl, rfl, rfl, rfl, rfl, fun hnot => ?_⟩⟩
    cases hc with
    | kept => rfl
    | full he => exact absurd (congrArg some he) hnot

/-- Settles O25: neither end writes a register of the host. -/
theorem commandsKeepTheHostsRegisters : Obligations.CommandsKeepTheHostsRegisters := by
  intro i s t h
  cases effect_of_exec h <;> exact ⟨rfl, rfl, rfl, rfl, rfl, rfl, rfl, rfl, rfl⟩

/-- A command outside the PRNG family leaves the generator alone (10_state.md R24, R25). -/
theorem Effect.rng_eq {i : Instr} {s t : State} (h : Effect i s t) (hi : i ∉ prngInstrs) :
    t.rng = s.rng ∧ t.seeded = s.seeded := by
  cases h with
  | commit result hc hg =>
    cases hg with
    | kept => exact ⟨rfl, rfl⟩
    | seeded g hmem => exact absurd hmem hi
  | error => exact ⟨rfl, rfl⟩

/-- Every command but CACHE_RESET leaves the cache or a growth of it (40_prime_cache.md R104). -/
theorem Effect.growthOf_cache {i : Instr} {s t : State} (h : Effect i s t) (hi : i ≠ .cacheReset) :
    GrowthOf s.cache t.cache := by
  cases h with
  | commit result hc hg =>
    cases hc with
    | kept => exact GrowthOf.refl _
    | reset heq => exact absurd heq hi
    | grown hmem hgrowth => exact hgrowth
  | error e info hc =>
    cases hc with
    | kept => exact GrowthOf.refl _
    | full he hmem hgrowth => exact hgrowth

/-- A command that is no CACHE_RESET and does not grow the cache leaves it alone (10_state.md R20). -/
theorem Effect.cache_eq {i : Instr} {s t : State} (h : Effect i s t) (hreset : i ≠ .cacheReset)
    (hi : i ∉ growingInstrs) : t.cache = s.cache := by
  cases h with
  | commit result hc hg =>
    cases hc with
    | kept => rfl
    | reset heq => exact absurd heq hreset
    | grown hmem => exact absurd hmem hi
  | error e info hc =>
    cases hc with
    | kept => rfl
    | full he hmem => exact absurd hmem hi

/-- Settles O26: the first list has no PRNG command, and the second neither CACHE_RESET nor a growing command. -/
theorem enginesDoNotTouchEachOther : Obligations.EnginesDoNotTouchEachOther := by
  intro i s t h
  have heffect := effect_of_exec h
  exact ⟨fun hi => heffect.rng_eq ((by decide : ∀ j ∈ _, j ∉ prngInstrs) i hi),
    fun hi => heffect.cache_eq ((by decide : ∀ j ∈ _, j ≠ .cacheReset) i hi)
      ((by decide : ∀ j ∈ _, j ∉ growingInstrs) i hi)⟩

end Sys2Proof.Machine

/-! SUPPORT. What a command reads: two runs of it on equal inputs end alike (30_encoding.md R82, R84, 10_state.md R26,
R45), with the statements NoCommandReadsTheResults, UnlistedArgumentsAreIgnored, OnlySeedReadsTheSeedBuffer and
DrawsDependOnlyOnTheGenerator. -/

namespace Sys2Proof.Machine

/-- The commands that list no ARG register (30_encoding.md R84). -/
def argFreeInstrs : List Instr := [.cacheReset, .seed, .next32, .nextFloat]

/-- The states `s` and `s'` agree on what command `i` reads (30_encoding.md R84). -/
structure SameInputs (i : Instr) (s s' : State) : Prop where
  cache : i ∉ prngInstrs → s.cache = s'.cache
  rng : s.rng = s'.rng
  seeded : s.seeded = s'.seeded
  nmax : s.nmax = s'.nmax
  arg0 : i ∉ argFreeInstrs → s.args[0] = s'.args[0]
  args : i = .rngLoad → s.args = s'.args
  seedLen : i = .seed → s.seedLen = s'.seedLen
  seedBuf : i = .seed → s.seedBuf = s'.seedBuf

/-- The states `t` and `t'` are the same end of a command, reached from `s` and from `s'`. -/
inductive SameEnd (s s' : State) : State → State → Prop
  | commit {c c' : Cache} (result : List Word) (g : Rng) (b : Bool) (hc : s.cache = s'.cache → c = c') :
      SameEnd s s' (afterCommit s result c g b) (afterCommit s' result c' g b)
  | error {c c' : Cache} (e : ErrKind) (info : Word) (hc : s.cache = s'.cache → c = c') :
      SameEnd s s' (afterError s e info c) (afterError s' e info c')

theorem checkAtMostNmax_of_valid {n : Word} {s : State} (body : State → State) (hle : n ≤ s.nmax) :
    checkAtMostNmax n body s = body s := by
  obtain ⟨hlt, -⟩ | ⟨-, heq⟩ := checkAtMostNmax_cases n body s
  · exact absurd hlt (BitVec.not_lt.mpr hle)
  · exact heq

section Shapes

variable {s s' : State}

theorem SameEnd.kept_error (e : ErrKind) {info info' : Word} (h : info = info') :
    SameEnd s s' (afterError s e info s.cache) (afterError s' e info' s'.cache) :=
  h ▸ .error e info id

theorem SameEnd.checkAtMostNmax {n n' : Word} {body body' : State → State} (hn : n = n') (hmax : s.nmax = s'.nmax)
    (h : SameEnd s s' (body s) (body' s')) :
    SameEnd s s' (checkAtMostNmax n body s) (checkAtMostNmax n' body' s') := by
  subst hn
  by_cases hbad : s.nmax < n
  · rw [checkAtMostNmax_of_invalid _ hbad, checkAtMostNmax_of_invalid _ (hmax ▸ hbad)]
    exact .kept_error _ rfl
  · have hle : n ≤ s.nmax := BitVec.not_lt.mp hbad
    rwa [checkAtMostNmax_of_valid _ hle, checkAtMostNmax_of_valid _ (hmax ▸ hle)]

theorem SameEnd.checkPositiveAtMostNmax {n n' : Word} {body body' : State → State} (hn : n = n')
    (hmax : s.nmax = s'.nmax) (h : SameEnd s s' (body s) (body' s')) :
    SameEnd s s' (checkPositiveAtMostNmax n body s) (checkPositiveAtMostNmax n' body' s') := by
  subst hn
  by_cases hbad : n = 0 ∨ s.nmax < n
  · rw [checkPositiveAtMostNmax_of_invalid _ hbad, checkPositiveAtMostNmax_of_invalid _ (hmax ▸ hbad)]
    exact .kept_error _ rfl
  · obtain ⟨hne, hnot⟩ := not_or.mp hbad
    have hle : n ≤ s.nmax := BitVec.not_lt.mp hnot
    rwa [checkPositiveAtMostNmax_of_valid _ hne hle, checkPositiveAtMostNmax_of_valid _ hne (hmax ▸ hle)]

theorem SameEnd.checkSeeded {body body' : State → State} (hseeded : s.seeded = s'.seeded)
    (h : SameEnd s s' (body s) (body' s')) : SameEnd s s' (checkSeeded body s) (checkSeeded body' s') := by
  cases hs : s.seeded with
  | false =>
    rw [checkSeeded_of_unseeded _ hs, checkSeeded_of_unseeded _ (hseeded ▸ hs)]
    exact .kept_error _ rfl
  | true => rwa [checkSeeded_of_seeded _ hs, checkSeeded_of_seeded _ (hseeded ▸ hs)]

theorem SameEnd.finishGrown {α : Type} {result result' : α → List Word} {g g' : Grown α} (hg : g = g')
    (hresult : result = result') (hrng : s.rng = s'.rng) (hseeded : s.seeded = s'.seeded) :
    SameEnd s s' (finishGrown result g s) (finishGrown result' g' s') := by
  subst hg hresult
  cases g with
  | done a c =>
    rw [Machine.finishGrown, Machine.finishGrown, commit_withCache, commit_withCache, hrng, hseeded]
    exact .commit _ _ _ fun _ => rfl
  | full k c => exact .error .cacheFull k fun _ => rfl

theorem SameEnd.kept_commit {result result' : List Word} {g g' : Rng} (hresult : result = result') (hg : g = g')
    (hseeded : s.seeded = s'.seeded) :
    SameEnd s s' (Machine.commit result { s with rng := g }) (Machine.commit result' { s' with rng := g' }) := by
  subst hresult hg
  rw [commit_withRng, commit_withRng, hseeded]
  exact .commit _ _ _ id

theorem SameEnd.factorizerCommand (result : Nat → List (Nat × Nat) → List Word) (capacity : Nat)
    (harg : s.args[0] = s'.args[0]) (hmax : s.nmax = s'.nmax) (hcache : s.cache = s'.cache) (hrng : s.rng = s'.rng)
    (hseeded : s.seeded = s'.seeded) :
    SameEnd s s' (factorizerCommand result capacity s) (factorizerCommand result capacity s') :=
  .checkPositiveAtMostNmax harg hmax (.finishGrown (by rw [State.arg_zero, State.arg_zero, harg, hcache])
    (by rw [State.arg_zero, State.arg_zero, harg]) hrng hseeded)

end Shapes

/-- Two runs of a command on equal inputs come to the same end. -/
theorem exec_sameEnd {i : Instr} {s s' : State} (h : SameInputs i s s') :
    ∃ t t', exec i s = .next t ∧ exec i s' = .next t' ∧ SameEnd s s' t t' := by
  obtain ⟨hcache, hrng, hseeded, hmax, harg, hargs, hlen, hbuf⟩ := h
  cases i with
  | cacheReset =>
    refine ⟨_, _, exec_cacheReset s, exec_cacheReset s', ?_⟩
    rw [hrng, hseeded]
    exact .commit _ _ _ fun _ => rfl
  | growTo =>
    replace hcache := hcache (by decide)
    replace harg := harg (by decide)
    exact ⟨_, _, rfl, rfl, .checkAtMostNmax harg hmax
      (.finishGrown (by rw [State.arg_zero, State.arg_zero, harg, hcache]) rfl hrng hseeded)⟩
  | isPrime =>
    replace hcache := hcache (by decide)
    replace harg := harg (by decide)
    exact ⟨_, _, rfl, rfl, .checkAtMostNmax harg hmax
      (.finishGrown (by rw [State.arg_zero, State.arg_zero, harg, hcache]) rfl hrng hseeded)⟩
  | classify =>
    refine ⟨_, _, exec_classify s, exec_classify s', ?_⟩
    rw [hrng, hseeded, harg (by decide), hcache (by decide)]
    exact .commit _ _ _ fun _ => rfl
  | primeAt =>
    replace hcache := hcache (by decide)
    refine ⟨_, _, rfl, rfl, ?_⟩
    rw [State.arg_zero, State.arg_zero, harg (by decide), hcache]
    cases s'.cache.primes[s'.args[0].toNat]? with
    | none => exact .kept_error _ rfl
    | some p => exact .kept_commit rfl hrng hseeded
  | factorize | phi | sigma | aliquot =>
    exact ⟨_, _, rfl, rfl,
      .factorizerCommand _ _ (harg (by decide)) hmax (hcache (by decide)) hrng hseeded⟩
  | seed =>
    refine ⟨_, _, rfl, rfl, ?_⟩
    have hbytes : s.seedBytes = s'.seedBytes := by
      rw [State.seedBytes, State.seedBytes, hlen rfl, hbuf rfl]
    rw [hlen rfl, hbytes]
    split
    · exact .kept_error _ rfl
    · exact .commit _ _ _ id
  | rngLoad =>
    refine ⟨_, _, rngLoadLoadsTheArguments s, rngLoadLoadsTheArguments s', ?_⟩
    rw [hargs rfl]
    exact .commit _ _ _ id
  | next32 => exact ⟨_, _, rfl, rfl, .checkSeeded hseeded (.kept_commit (by rw [hrng]) (by rw [hrng]) hseeded)⟩
  | nextFloat => exact ⟨_, _, rfl, rfl, .checkSeeded hseeded (.kept_commit (by rw [hrng]) (by rw [hrng]) hseeded)⟩
  | nextBounded =>
    replace harg := harg (by decide)
    exact ⟨_, _, rfl, rfl, .checkPositiveAtMostNmax harg hmax (.checkSeeded hseeded
      (.kept_commit (by rw [State.arg_zero, State.arg_zero, harg, hrng]) (by rw [hrng]) hseeded))⟩

/-! ## What no command reads -/

/-- Settles O27: RES is no input, and both ends overwrite it. -/
theorem noCommandReadsTheResults : Obligations.NoCommandReadsTheResults := by
  intro i s r
  have hinputs : SameInputs i { s with res := r } s :=
    ⟨fun _ => rfl, rfl, rfl, rfl, fun _ => rfl, fun _ => rfl, fun _ => rfl, fun _ => rfl⟩
  obtain ⟨t, t', hexec, hexec', hend⟩ := exec_sameEnd hinputs
  rw [hexec, hexec']
  cases hend with
  | commit result g b hc => rw [hc rfl]; rfl
  | error e info hc => rw [hc rfl]; rfl

/-- Writing an ARG register other than ARG0 leaves ARG0. -/
theorem getElem_zero_set (args : Vector Word 4) {j : Fin 4} (v : Word) (h : j ≠ 0) :
    (args.set j v)[0] = args[0] :=
  Vector.getElem_set_ne _ _ fun heq => h (Fin.ext heq)

/-- Settles O28: a register that is not listed is no input, and both ends keep it. -/
theorem unlistedArgumentsAreIgnored : Obligations.UnlistedArgumentsAreIgnored := by
  intro i j s t v hunlisted h
  have harg : i ∉ argFreeInstrs → s.args[0] = (s.args.set j v)[0] := fun hlisted =>
    (getElem_zero_set s.args v (hunlisted.resolve_left hlisted).2).symm
  have hargs : i = .rngLoad → s.args = s.args.set j v := by
    rintro rfl
    exact absurd rfl (hunlisted.resolve_left (by decide)).1
  have hinputs : SameInputs i s { s with args := s.args.set j v } :=
    ⟨fun _ => rfl, rfl, rfl, rfl, harg, hargs, fun _ => rfl, fun _ => rfl⟩
  obtain ⟨t₁, t', hexec, hexec', hend⟩ := exec_sameEnd hinputs
  obtain rfl : t = t₁ := by simpa [h] using hexec
  rw [hexec']
  cases hend with
  | commit result g b hc => rw [hc rfl]; rfl
  | error e info hc => rw [hc rfl]; rfl

/-- Settles O29: SEED_BUF and SEED_LEN are inputs of SEED alone, and both ends keep them. -/
theorem onlySeedReadsTheSeedBuffer : Obligations.OnlySeedReadsTheSeedBuffer := by
  intro i s t buf len hi h
  have hinputs : SameInputs i s { s with seedBuf := buf, seedLen := len } :=
    ⟨fun _ => rfl, rfl, rfl, rfl, fun _ => rfl, fun _ => rfl, fun heq => absurd heq hi, fun heq => absurd heq hi⟩
  obtain ⟨t₁, t', hexec, hexec', hend⟩ := exec_sameEnd hinputs
  obtain rfl : t = t₁ := by simpa [h] using hexec
  rw [hexec']
  cases hend with
  | commit result g b hc => rw [hc rfl]; rfl
  | error e info hc => rw [hc rfl]; rfl

/-! ## Sequences of draws -/

/-- What a draw command reads (42_prng.md R165). -/
structure SameGenerator (s s' : State) : Prop where
  rng : s.rng = s'.rng
  seeded : s.seeded = s'.seeded
  arg0 : s.args[0] = s'.args[0]
  nmax : s.nmax = s'.nmax

theorem SameGenerator.sameInputs {i : Instr} {s s' : State} (h : SameGenerator s s')
    (hi : i ∈ [Instr.next32, .nextFloat, .nextBounded]) : SameInputs i s s' where
  cache hnot := absurd ((by decide : ∀ j ∈ _, j ∈ prngInstrs) i hi) hnot
  rng := h.rng
  seeded := h.seeded
  nmax := h.nmax
  arg0 _ := h.arg0
  args heq := absurd heq ((by decide : ∀ j ∈ _, j ≠ .rngLoad) i hi)
  seedLen heq := absurd heq ((by decide : ∀ j ∈ _, j ≠ .seed) i hi)
  seedBuf heq := absurd heq ((by decide : ∀ j ∈ _, j ≠ .seed) i hi)

/-- The same end from two states with the same generator has equal RES and the same generator again. -/
theorem SameGenerator.of_sameEnd {s s' t t' : State} (h : SameGenerator s s') (hend : SameEnd s s' t t') :
    t.res = t'.res ∧ SameGenerator t t' := by
  cases hend with
  | commit result g b hc => exact ⟨rfl, rfl, rfl, h.arg0, h.nmax⟩
  | error e info hc => exact ⟨rfl, h.rng, h.seeded, h.arg0, h.nmax⟩

theorem SameGenerator.drawResults_eq {draws : List Instr} {s s' : State} (h : SameGenerator s s')
    (hdraws : ∀ i ∈ draws, i ∈ [Instr.next32, .nextFloat, .nextBounded]) :
    drawResults draws s = drawResults draws s' := by
  induction draws generalizing s s' with
  | nil => rfl
  | cons i is ih =>
    obtain ⟨hi, his⟩ := List.forall_mem_cons.mp hdraws
    obtain ⟨t, t', hexec, hexec', hend⟩ := exec_sameEnd (h.sameInputs hi)
    obtain ⟨hres, hnext⟩ := h.of_sameEnd hend
    simp only [drawResults, hexec, hexec', hres, ih hnext his]

/-- Settles O58: induction on the list, with the agreement on the generator kept by every draw. -/
theorem drawsDependOnlyOnTheGenerator : Obligations.DrawsDependOnlyOnTheGenerator :=
  fun _ _ _ hdraws hrng hseeded harg hmax => SameGenerator.drawResults_eq ⟨hrng, hseeded, harg, hmax⟩ hdraws

end Sys2Proof.Machine

/-! SUPPORT. Runs of the machine and what one step keeps (20_memory.md R64, R66, R68, 60_exceptions.md R201,
70_reset_and_hazards.md R245), with the statements HostCannotDisturbABusyCommand, BusyBlockCommits,
WellFormedHostNeverStops, CacheOnlyGrows and ErrInfoChangesOnlyAtAnErrorCommit. -/

namespace Sys2Proof.Machine

/-! ## Runs -/

theorem run_succ {s t : State} (k : Nat) (h : step s = .next t) :
    Sys2Proof.core.run (k + 1) s = Sys2Proof.core.run k t := by
  have hcore : Sys2Proof.core.step s = .next t := h
  simp only [Host.Core.run, hcore]

theorem run_one {s t : State} (h : step s = .next t) : Sys2Proof.core.run 1 s = .next t :=
  run_succ 0 h

/-! ## One host operation on a BUSY block -/

/-- A register write on a BUSY block changes OVR only, and sets it unless the register is STATUS (20_memory.md R63). -/
theorem State.writeReg_busy_cases {s : State} {r : Reg} (delay : Nat) (v : Word) (h : s.phase = .busy) :
    (r = .status ∧ s.writeReg delay v r = s.writeStatus v) ∨
    ∃ b, (s.ovr = true → b = true) ∧ s.writeReg delay v r = { s with ovr := b } := by
  cases hr : r.access with
  | command => exact .inr ⟨true, fun _ => rfl, State.writeReg_of_busy delay v h (.inl hr)⟩
  | readWrite => exact .inr ⟨true, fun _ => rfl, State.writeReg_of_busy delay v h (.inr hr)⟩
  | readOnly => exact .inr ⟨s.ovr, id, State.writeReg_of_readOnly delay v s hr⟩
  | status =>
    left
    cases r with
    | status => exact ⟨rfl, rfl⟩
    | _ => simp [Reg.access] at hr

/-- An access that reaches a register is the 4-byte access at its offset (20_memory.md R60). -/
theorem eq_of_busTarget_eq_some {addr width : Nat} {r : Reg} (h : busTarget addr width = some r) :
    addr = Config.blockBase + r.offset ∧ width = 4 := by
  unfold busTarget at h
  split at h
  · next hcond =>
    have hoffset := Reg.offset_of_ofOffset h
    exact ⟨by omega, hcond.1⟩
  · cases h

/-- What a host operation other than reset can do to a BUSY block (20_memory.md R64, R66, R68): OVR may change, and it
falls only by a STATUS write. -/
theorem performHostOp_busy {op : HostOp} {s t : State} (hbusy : s.phase = .busy) (hop : op ≠ .reset)
    (h : performHostOp op s = .next t) :
    t = { s with ovr := t.ovr, host := t.host, reads := t.reads, hold := s.hold - 1 } ∧
    (t.host = s.host.tail ∨ t.host = s.host) ∧
    (s.ovr = true → (∀ v, op ≠ .write (Config.blockBase + 0x008) 4 v) → t.ovr = true) := by
  obtain ⟨_, _, _, -, -, rfl⟩ | ⟨_, _, v, r, rfl, htarget, rfl⟩ | ⟨-, -, rfl⟩ | ⟨-, hidle, -⟩ | ⟨hreset, -⟩ :=
    performHostOp_cases h
  · exact ⟨rfl, .inl rfl, fun hovr _ => hovr⟩
  · have hbusy' : s.hostDone.phase = .busy := hbusy
    obtain ⟨rfl, heq⟩ | ⟨b, hb, heq⟩ := State.writeReg_busy_cases (r := r) (Config.latency s.accepted) v hbusy'
    · obtain ⟨rfl, rfl⟩ := eq_of_busTarget_eq_some htarget
      rw [heq]
      exact ⟨rfl, .inl rfl, fun _ hnot => absurd rfl (hnot v)⟩
    · rw [heq]
      exact ⟨rfl, .inl rfl, fun hovr _ => hb hovr⟩
  · exact ⟨rfl, .inr rfl, fun hovr _ => hovr⟩
  · simp [State.isBusy_eq, hbusy] at hidle
  · exact absurd hreset hop

/-- Settles O9: the step is the host's, and its operation is not the reset. -/
theorem hostCannotDisturbABusyCommand : Obligations.HostCannotDisturbABusyCommand := by
  intro s t hbusy hnot hreset hstep
  obtain ⟨-, op, rest, hm⟩ := hostMoves_of_busy hbusy hnot
  have hop : op ≠ .reset := by
    rintro rfl
    exact hreset ⟨hnot, by simp [hm.host_is]⟩
  rw [hm.step_eq] at hstep
  obtain ⟨hframe, -, hovr⟩ := performHostOp_busy hbusy hop hstep
  refine ⟨hframe, fun hset hno => hovr hset fun v hv => hno v ?_⟩
  rw [hm.host_is, hv, List.head?_cons]

/-! ## A host of well-formed accesses -/

/-- A well-formed access reaches a register (20_memory.md R60, 10_state.md R28). -/
theorem busTarget_of_wellFormed {addr width : Nat} (h : WellFormed.access Config.blockBase addr width = true) :
    ∃ r, busTarget addr width = some r := by
  simp only [WellFormed.access, Bool.and_eq_true, beq_iff_eq, decide_eq_true_eq] at h
  obtain ⟨⟨⟨rfl, halign⟩, hlow⟩, hhigh⟩ := h
  have hwindow : Config.windowBytes = 512 := rfl
  have hbase := Config.blockBase_mod_four
  obtain ⟨off, rfl⟩ := Nat.exists_eq_add_of_le hlow
  rw [busTarget_base_add]
  have hall : ∀ n : Fin 128, (Reg.ofOffset (4 * n.val)).isSome = true := by decide
  have hoff : off = 4 * (off / 4) := by omega
  rw [hoff]
  exact Option.isSome_iff_exists.mp (hall ⟨off / 4, by omega⟩)

/-- A well-formed operation does not stop the machine (20_memory.md R61). -/
theorem performHostOp_of_wellFormed {op : HostOp} (s : State) (h : WellFormed.hostOp Config.blockBase op = true) :
    ∃ t, performHostOp op s = .next t := by
  cases op with
  | read addr width =>
    obtain ⟨r, hr⟩ := busTarget_of_wellFormed h
    exact ⟨_, by rw [performHostOp, hr]⟩
  | write addr width v =>
    obtain ⟨r, hr⟩ := busTarget_of_wellFormed h
    exact ⟨_, by rw [performHostOp, hr]⟩
  | poll =>
    rw [performHostOp]
    split <;> exact ⟨_, rfl⟩
  | reset => exact ⟨_, rfl⟩

/-- No register write reaches the pending operations, the cache or ERRINFO (20_memory.md R63). -/
theorem State.writeReg_frame (delay : Nat) (v : Word) (s : State) (r : Reg) :
    (s.writeReg delay v r).host = s.host ∧ (s.writeReg delay v r).cache = s.cache ∧
      (s.writeReg delay v r).errInfo = s.errInfo := by
  have hguard : ∀ body : State → State,
      (body s).host = s.host ∧ (body s).cache = s.cache ∧ (body s).errInfo = s.errInfo →
      (unlessBusy body s).host = s.host ∧ (unlessBusy body s).cache = s.cache ∧
        (unlessBusy body s).errInfo = s.errInfo := by
    intro body hbody
    obtain ⟨-, heq⟩ | ⟨-, heq⟩ := unlessBusy_cases body s <;> rw [heq]
    · exact hbody
    · exact ⟨rfl, rfl, rfl⟩
  cases r with
  | cmd | arg _ | nmax | seedLen | seedBuf _ => exact hguard _ ⟨rfl, rfl, rfl⟩
  | _ => exact ⟨rfl, rfl, rfl⟩

/-- A host operation is done or stays, and no other one appears. -/
theorem performHostOp_host {op : HostOp} {s t : State} (h : performHostOp op s = .next t) :
    t.host = s.host.tail ∨ t.host = s.host := by
  obtain ⟨_, _, _, -, -, rfl⟩ | ⟨_, _, _, _, -, -, rfl⟩ | ⟨-, -, rfl⟩ | ⟨-, -, rfl⟩ | ⟨-, rfl⟩ := performHostOp_cases h
  · exact .inl rfl
  · exact .inl (State.writeReg_frame _ _ _ _).1
  · exact .inr rfl
  · exact .inl rfl
  · exact .inl rfl

theorem Effect.host_eq {i : Instr} {s t : State} (h : Effect i s t) : t.host = s.host := by
  cases h <;> rfl

/-- The pending operations after a step are those before it, or all but the first. -/
theorem step_host {s t : State} (h : step s = .next t) : t.host = s.host.tail ∨ t.host = s.host := by
  obtain ⟨-, i, -, hstep⟩ | ⟨-, e, -, hstep⟩ | ⟨-, op, rest, -, hstep⟩ | ⟨-, -, hstep⟩ := step_cases s <;>
    rw [hstep] at h
  · exact .inr (effect_of_exec h).host_eq
  · cases h
    exact .inr rfl
  · exact performHostOp_host h
  · cases h
    exact .inr rfl

theorem State.hostWf.step {s t : State} (hwf : s.hostWf) (h : step s = .next t) : t.hostWf := by
  intro op hmem
  obtain heq | heq := step_host h
  · exact hwf op (List.mem_of_mem_tail (heq ▸ hmem))
  · exact hwf op (heq ▸ hmem)

/-- With a host of well-formed accesses every step goes on: no command stops the machine, and no such access does. -/
theorem State.hostWf.exists_step {s : State} (hwf : s.hostWf) : ∃ t, Machine.step s = .next t := by
  obtain ⟨-, i, -, hstep⟩ | ⟨-, e, -, hstep⟩ | ⟨-, op, rest, hhost, hstep⟩ | ⟨-, -, hstep⟩ := step_cases s
  · obtain ⟨t, hexec, -⟩ := exec_effect i s
    exact ⟨t, hstep.trans hexec⟩
  · exact ⟨_, hstep⟩
  · obtain ⟨t, hop⟩ := performHostOp_of_wellFormed s (hwf op (by simp [hhost]))
    exact ⟨t, hstep.trans hop⟩
  · exact ⟨_, hstep⟩

/-- Settles O23: induction on the number of steps. -/
theorem wellFormedHostNeverStops : Obligations.WellFormedHostNeverStops := by
  intro s k hwf
  induction k generalizing s with
  | zero => exact ⟨s, rfl, hwf⟩
  | succ k ih =>
    obtain ⟨t, hstep⟩ := hwf.exists_step
    rw [run_succ k hstep]
    exact ih t (hwf.step hstep)

/-! ## A BUSY block commits -/

/-- When the sequencer moves it commits, by the command's end or by IllegalCommand (30_encoding.md R91, R92). -/
theorem step_commits {s : State} (h : s.sequencerMoves = true) :
    ∃ t, step s = .next t ∧ t.phase = .idle ∧ t.done = true ∧ t.lastCmd = s.lastCmd := by
  obtain ⟨-, i, -, hstep⟩ | ⟨-, e, -, hstep⟩ | ⟨hnot, -⟩ | ⟨hnot, -⟩ := step_cases s
  · obtain ⟨t, hexec, heffect⟩ := exec_effect i s
    refine ⟨t, hstep.trans hexec, ?_⟩
    cases heffect <;> exact ⟨rfl, rfl, rfl⟩
  · exact ⟨_, hstep, rfl, rfl, rfl⟩
  · simp [h] at hnot
  · simp [h] at hnot

/-- A BUSY block of hold `n` reaches its commit, or the platform's reset, within `n + 1` steps. -/
theorem busy_commits (n : Nat) (s : State) (hhold : s.hold = n) (hbusy : s.phase = .busy) (hwf : s.hostWf) :
    ∃ (k : Nat) (t : State), k ≤ n + 1 ∧ Sys2Proof.core.run k s = .next t ∧ t.phase = .idle ∧
      (HostOp.reset ∉ s.host → t.done = true ∧ t.lastCmd = s.lastCmd) := by
  induction n generalizing s with
  | zero =>
    obtain ⟨t, hstep, hidle, hdone, hlast⟩ := step_commits ((State.sequencerMoves_iff s).mpr ⟨hbusy, .inl hhold⟩)
    exact ⟨1, t, le_rfl, run_one hstep, hidle, fun _ => ⟨hdone, hlast⟩⟩
  | succ n ih =>
    by_cases hmove : s.sequencerMoves = true
    · obtain ⟨t, hstep, hidle, hdone, hlast⟩ := step_commits hmove
      exact ⟨1, t, by omega, run_one hstep, hidle, fun _ => ⟨hdone, hlast⟩⟩
    · obtain ⟨-, op, rest, hm⟩ := hostMoves_of_busy hbusy (by simpa using hmove)
      obtain ⟨u, hstep⟩ := hwf.exists_step
      by_cases hop : op = .reset
      · subst hop
        refine ⟨1, _, by omega, run_one (resetEventRestoresTheResetState s rest hm), rfl, fun hnone => ?_⟩
        exact absurd (by simp [hm.host_is]) hnone
      · have hperform := hm.step_eq.symm.trans hstep
        obtain ⟨hframe, hhost, -⟩ := performHostOp_busy hbusy hop hperform
        have huhold : u.hold = n := by rw [hframe]; simp [hhold]
        have hubusy : u.phase = .busy := by rw [hframe]; exact hbusy
        have hulast : u.lastCmd = s.lastCmd := by rw [hframe]
        obtain ⟨k, t, hk, hrun, hidle, hdone⟩ := ih u huhold hubusy (hwf.step hstep)
        refine ⟨k + 1, t, by omega, (run_succ k hstep).trans hrun, hidle, fun hnone => ?_⟩
        rw [← hulast]
        refine hdone fun hmem => hnone ?_
        obtain heq | heq := hhost
        · exact List.mem_of_mem_tail (heq ▸ hmem)
        · exact heq ▸ hmem

/-- Settles O7: each host operation brings the commit one step nearer. -/
theorem busyBlockCommits : Obligations.BusyBlockCommits :=
  fun s hbusy hwf => busy_commits s.hold s rfl hbusy hwf

/-! ## What only some steps change -/

/-- A host operation other than reset leaves the cache and ERRINFO alone. -/
theorem performHostOp_engines {op : HostOp} {s t : State} (hop : op ≠ .reset) (h : performHostOp op s = .next t) :
    t.cache = s.cache ∧ t.errInfo = s.errInfo := by
  obtain ⟨_, _, _, -, -, rfl⟩ | ⟨_, _, v, r, -, -, rfl⟩ | ⟨-, -, rfl⟩ | ⟨-, -, rfl⟩ | ⟨hreset, -⟩ :=
    performHostOp_cases h
  · exact ⟨rfl, rfl⟩
  · exact (State.writeReg_frame _ v _ r).2
  · exact ⟨rfl, rfl⟩
  · exact ⟨rfl, rfl⟩
  · exact absurd hreset hop

/-- A step that is not reset is the run of a command, the commit of an illegal word, or a step that leaves the cache and
ERRINFO alone. -/
theorem step_engines {s t : State} (hreset : ¬ s.resetNext) (h : step s = .next t) :
    (s.sequencerMoves = true ∧ ∃ i, decode s.lastCmd = .ok i ∧ Effect i s t) ∨
    (s.sequencerMoves = true ∧ t = afterError s .illegalCommand s.lastCmd s.cache) ∨
    (t.cache = s.cache ∧ t.errInfo = s.errInfo) := by
  obtain ⟨hmove, i, hdecode, hstep⟩ | ⟨hmove, e, -, hstep⟩ | ⟨hnot, op, rest, hhost, hstep⟩ | ⟨-, -, hstep⟩ :=
    step_cases s <;> rw [hstep] at h
  · exact .inl ⟨hmove, i, hdecode, effect_of_exec h⟩
  · cases h
    exact .inr (.inl ⟨hmove, rfl⟩)
  · refine .inr (.inr (performHostOp_engines ?_ h))
    rintro rfl
    exact hreset ⟨hnot, by rw [hhost, List.head?_cons]⟩
  · cases h
    exact .inr (.inr ⟨rfl, rfl⟩)

/-- Settles O21: a command that is no CACHE_RESET leaves a growth of the cache, and every other step leaves it alone. -/
theorem cacheOnlyGrows : Obligations.CacheOnlyGrows := by
  intro s t hreset hcacheReset hstep
  have hgrowth : GrowthOf s.cache t.cache := by
    obtain ⟨hmove, i, hdecode, heffect⟩ | ⟨-, rfl⟩ | ⟨hcache, -⟩ := step_engines hreset hstep
    · refine heffect.growthOf_cache ?_
      rintro rfl
      exact hcacheReset ⟨hmove, hdecode⟩
    · exact GrowthOf.refl _
    · exact hcache ▸ GrowthOf.refl _
  obtain ⟨hprefix, hhw⟩ := hgrowth.prefix_and_hw_le
  exact ⟨List.isPrefixOf_iff_prefix.mpr hprefix, hhw⟩

/-- Settles O22: only the error end of a command, or an illegal word, writes ERRINFO. -/
theorem errInfoChangesOnlyAtAnErrorCommit : Obligations.ErrInfoChangesOnlyAtAnErrorCommit := by
  intro s t hreset hstep hchanged
  obtain ⟨hmove, i, -, heffect⟩ | ⟨hmove, rfl⟩ | ⟨-, hkept⟩ := step_engines hreset hstep
  · cases heffect with
    | commit => exact absurd rfl hchanged
    | error => exact ⟨hmove, rfl, rfl, rfl⟩
  · exact ⟨hmove, rfl, rfl, rfl⟩
  · exact absurd hkept hchanged

end Sys2Proof.Machine

/-! SUPPORT. The prime cache against the primes: what `cacheUpTo` lists, that the invariants of 10_state.md R23 allow no
other cache, and what growing it gives (40_prime_cache.md R100, R101), with the statements
CacheHoldsExactlyThePrimesUpToHw, GrowToClassifiesEveryIntegerUpToN, GrowToKeepsTheGrowthWhenTheCacheIsFull,
GrowToIsIdempotent, IsPrimeAnswersPrimality, ClassifyTellsPrimesFromNonPrimes and PrimeAtGivesTheIthPrime. -/

namespace Sys2Proof.Machine

/-! ## Counting primes -/

/-- At most `m` primes are up to `n` exactly when the prime of index `m` is above `n`. -/
theorem primeCounting_le_iff {n m : Nat} : Nat.primeCounting n ≤ m ↔ n < Nat.nth Nat.Prime m :=
  Nat.count_le_iff_le_nth Nat.infinite_setOfPred_prime

theorem primeCounting_succ (n : Nat) :
    Nat.primeCounting (n + 1) = Nat.primeCounting n + if (n + 1).Prime then 1 else 0 :=
  Nat.count_succ Nat.Prime (n + 1)

/-- A prime is the one of index "how many primes are below it". -/
theorem nth_primeCounting {n : Nat} (h : (n + 1).Prime) : Nat.nth Nat.Prime (Nat.primeCounting n) = n + 1 :=
  Nat.nth_count h

/-! ## The list of the primes up to a bound -/

theorem toNat_ofNat_of_lt {n : Nat} (h : n < 2 ^ 32) : (BitVec.ofNat 32 n).toNat = n := by
  rw [BitVec.toNat_ofNat, Nat.mod_eq_of_lt h]

theorem primesUpTo_succ (n : Nat) :
    primesUpTo (n + 1) = primesUpTo n ++ if (n + 1).Prime then [BitVec.ofNat 32 (n + 1)] else [] := by
  rw [primesUpTo, List.range_succ, List.filter_append, List.map_append, primesUpTo]
  by_cases h : (n + 1).Prime <;> simp [h]

/-- The entries are the primes by index (10_state.md R36). -/
theorem primesUpTo_eq_map_nth (n : Nat) : primesUpTo n =
    (List.range (Nat.primeCounting n)).map fun i => BitVec.ofNat 32 (Nat.nth Nat.Prime i) := by
  induction n with
  | zero => rfl
  | succ n ih =>
    rw [primesUpTo_succ, primeCounting_succ, ih]
    by_cases h : (n + 1).Prime
    · simp only [if_pos h, List.range_succ, List.map_append, List.map_singleton, nth_primeCounting h]
    · simp only [if_neg h, List.append_nil, Nat.add_zero]

theorem length_primesUpTo (n : Nat) : (primesUpTo n).length = Nat.primeCounting n := by
  rw [primesUpTo_eq_map_nth, List.length_map, List.length_range]

theorem mem_primesUpTo {n : Nat} (hn : n < 2 ^ 32) (p : Word) :
    p ∈ primesUpTo n ↔ p.toNat.Prime ∧ p.toNat ≤ n := by
  simp only [primesUpTo, List.mem_map, List.mem_filter, List.mem_range, decide_eq_true_eq, Nat.lt_succ_iff]
  constructor
  · rintro ⟨k, ⟨hk, hprime⟩, rfl⟩
    rw [toNat_ofNat_of_lt (hk.trans_lt hn)]
    exact ⟨hprime, hk⟩
  · rintro ⟨hprime, hle⟩
    exact ⟨p.toNat, ⟨hle, hprime⟩, by rw [BitVec.ofNat_toNat, BitVec.setWidth_eq]⟩

theorem primesUpTo_ascending {n : Nat} (hn : n < 2 ^ 32) : (primesUpTo n).Pairwise (· < ·) := by
  refine List.pairwise_map.mpr (((List.pairwise_lt_range).filter _).imp_of_mem ?_)
  intro a b ha hb hlt
  simp only [List.mem_filter, List.mem_range] at ha hb
  rw [BitVec.lt_def, toNat_ofNat_of_lt (by omega), toNat_ofNat_of_lt (by omega)]
  exact hlt

/-- From 2 on the first entry is 2. -/
theorem head?_primesUpTo {n : Nat} (hn : 2 ≤ n) : (primesUpTo n).head? = some 2 := by
  induction n, hn using Nat.le_induction with
  | base => decide
  | succ n hn ih => rw [primesUpTo_succ, List.head?_append, ih, Option.some_or]

/-! ## The one cache the invariants allow -/

theorem cacheUpTo_hw {n : Nat} (hn : n < 2 ^ 32) : (cacheUpTo n).hw.toNat = n := toNat_ofNat_of_lt hn

/-- The cache of the primes up to `n` satisfies 10_state.md R23. -/
theorem cacheUpTo_inv {capacity n : Nat} (hlow : 2 ≤ n) (hhigh : n < 2 ^ 32)
    (hfits : Nat.primeCounting n ≤ capacity) : (cacheUpTo n).Inv capacity where
  first_entry := head?_primesUpTo hlow
  two_le_hw := by rw [BitVec.le_def, cacheUpTo_hw hhigh]; exact hlow
  ascending := primesUpTo_ascending hhigh
  entries_prime p hp := by
    rw [BitVec.le_def, cacheUpTo_hw hhigh]
    exact (mem_primesUpTo hhigh p).mp hp
  classified k hk hprime := by
    rw [BitVec.le_def, cacheUpTo_hw hhigh] at hk
    exact (mem_primesUpTo hhigh k).mpr ⟨hprime, hk⟩
  fits := by rw [cacheUpTo, length_primesUpTo]; exact hfits

section OfInv

variable {capacity : Nat} {c : Cache}

/-- A cache that meets the invariants is the list of the primes up to its `hw` (10_state.md R23). -/
theorem Cache.Inv.eq_cacheUpTo (h : c.Inv capacity) : c = cacheUpTo c.hw.toNat := by
  have hprimes : c.primes = primesUpTo c.hw.toNat :=
    h.ascending.eq_of_mem_iff (primesUpTo_ascending c.hw.isLt) fun p => by
      rw [mem_primesUpTo c.hw.isLt]
      exact ⟨h.entries_prime p, fun ⟨hprime, hle⟩ => h.classified p hle hprime⟩
  calc c = { primes := c.primes, hw := c.hw } := rfl
    _ = cacheUpTo c.hw.toNat := by rw [cacheUpTo, ← hprimes, BitVec.ofNat_toNat, BitVec.setWidth_eq]

theorem Cache.Inv.primes_eq (h : c.Inv capacity) : c.primes = primesUpTo c.hw.toNat :=
  congrArg Cache.primes h.eq_cacheUpTo

theorem Cache.Inv.mem_primes_iff (h : c.Inv capacity) (p : Word) :
    p ∈ c.primes ↔ p.toNat.Prime ∧ p.toNat ≤ c.hw.toNat := by
  rw [h.primes_eq, mem_primesUpTo c.hw.isLt]

theorem Cache.Inv.two_le (h : c.Inv capacity) : 2 ≤ c.hw.toNat := h.two_le_hw

theorem Cache.Inv.length_eq (h : c.Inv capacity) : c.primes.length = Nat.primeCounting c.hw.toNat := by
  rw [h.primes_eq, length_primesUpTo]

theorem Cache.Inv.primeCounting_le (h : c.Inv capacity) : Nat.primeCounting c.hw.toNat ≤ capacity :=
  h.length_eq ▸ h.fits

end OfInv

/-- Settles O20: the invariants fix the members and the order of the list. -/
theorem cacheHoldsExactlyThePrimesUpToHw : Obligations.CacheHoldsExactlyThePrimesUpToHw :=
  fun _ _ h => ⟨h.eq_cacheUpTo, h.length_eq⟩

/-! ## The scan for a divisor -/

/-- The scan fails only at an entry that divides (40_prime_cache.md R100). -/
theorem exists_dvd_of_scan_eq_false {n bound : Nat} {ps : List Word}
    (h : scanFindsNoDivisor n bound ps = false) : ∃ p ∈ ps, p.toNat ∣ n := by
  induction ps with
  | nil => simp [scanFindsNoDivisor] at h
  | cons p ps ih =>
    rw [scanFindsNoDivisor] at h
    split at h
    · next hzero => exact ⟨p, List.mem_cons_self, Nat.dvd_of_mod_eq_zero hzero⟩
    · split at h
      · simp at h
      · obtain ⟨q, hq, hdvd⟩ := ih h
        exact ⟨q, List.mem_cons_of_mem p hq, hdvd⟩

/-- The scan of an ascending list succeeds only when no entry up to the bound divides (40_prime_cache.md R100). -/
theorem not_dvd_of_scan_eq_true {n bound : Nat} {ps : List Word} (hasc : ps.Pairwise (· < ·))
    (h : scanFindsNoDivisor n bound ps = true) : ∀ p ∈ ps, p.toNat ≤ bound → ¬ p.toNat ∣ n := by
  induction ps with
  | nil => simp
  | cons p ps ih =>
    obtain ⟨hhead, htail⟩ := List.pairwise_cons.mp hasc
    rw [scanFindsNoDivisor] at h
    split at h
    · simp at h
    · next hzero =>
      have hp : ¬ p.toNat ∣ n := fun hdvd => hzero (Nat.mod_eq_zero_of_dvd hdvd)
      split at h
      · next habove =>
        have hall : ∀ q ∈ p :: ps, bound < q.toNat :=
          List.forall_mem_cons.mpr ⟨habove, fun q hq => habove.trans (hhead q hq)⟩
        exact fun q hq hle => absurd (hall q hq) (Nat.not_lt.mpr hle)
      · exact List.forall_mem_cons.mpr ⟨fun _ => hp, ih htail h⟩

/-- A number without a prime divisor up to its root is prime (40_prime_cache.md R100). -/
theorem prime_of_no_divisor_up_to_root {n : Nat} (hn : 2 ≤ n)
    (h : ∀ q, q.Prime → q ≤ ceilSqrt n → ¬ q ∣ n) : n.Prime := by
  by_contra hnot
  have hsq : n.minFac * n.minFac ≤ n := by
    rw [← sq]
    exact Nat.minFac_sq_le_self (by omega) hnot
  have hle : n.minFac ≤ ceilSqrt n := Nat.mul_self_le_mul_self_iff.mp (hsq.trans (le_ceilSqrt_mul_self n))
  exact h n.minFac (Nat.minFac_prime (by omega)) hle (Nat.minFac_dvd n)

/-- Against the primes up to a bound that reaches the root but not the number, the scan decides primality
(40_prime_cache.md R100, R102). -/
theorem scan_primesUpTo {n h : Nat} (hn : 2 ≤ n) (hroot : ceilSqrt n ≤ h) (hlt : h < n) (h32 : h < 2 ^ 32) :
    scanFindsNoDivisor n (ceilSqrt n) (primesUpTo h) = decide n.Prime := by
  cases hscan : scanFindsNoDivisor n (ceilSqrt n) (primesUpTo h) with
  | false =>
    obtain ⟨p, hmem, hdvd⟩ := exists_dvd_of_scan_eq_false hscan
    obtain ⟨hprime, hle⟩ := (mem_primesUpTo h32 p).mp hmem
    have hnot : ¬ n.Prime := fun hnp => by
      have heq := (Nat.prime_dvd_prime_iff_eq hprime hnp).mp hdvd
      omega
    exact (decide_eq_false hnot).symm
  | true =>
    have hnone := not_dvd_of_scan_eq_true (primesUpTo_ascending h32) hscan
    refine (decide_eq_true (prime_of_no_divisor_up_to_root hn fun q hq hle => ?_)).symm
    have hq32 : (BitVec.ofNat 32 q).toNat = q := toNat_ofNat_of_lt (by omega)
    rw [← hq32] at hq hle ⊢
    exact hnone _ ((mem_primesUpTo h32 _).mpr ⟨hq, by omega⟩) hle

/-! ## GrowTo -/

/-- The next candidate is classified right by the primes below it (40_prime_cache.md R100). -/
theorem classifyCandidate_primesUpTo {k : Nat} (hk : 2 ≤ k) (h32 : k < 2 ^ 32) :
    classifyCandidate (k + 1) (primesUpTo k) = decide (k + 1).Prime :=
  scan_primesUpTo (by omega) ((ceilSqrt_le_iff _ _).mpr (by nlinarith)) (by omega) h32

/-- The loop of GrowTo from the primes up to `k`: all primes up to the last candidate, or CacheFull at the first that
does not fit (40_prime_cache.md R101). -/
theorem growLoop_primesUpTo (capacity steps k : Nat) (hk : 2 ≤ k) (hb : k + steps < 2 ^ 32)
    (hfits : Nat.primeCounting k ≤ capacity) :
    growLoop capacity steps (k + 1) (primesUpTo k) =
      if Nat.primeCounting (k + steps) ≤ capacity then .done () (cacheUpTo (k + steps))
      else .full (BitVec.ofNat 32 (Nat.nth Nat.Prime capacity)) (cacheUpTo (Nat.nth Nat.Prime capacity - 1)) := by
  induction steps generalizing k with
  | zero =>
    rw [if_pos (show Nat.primeCounting (k + 0) ≤ capacity from hfits)]
    rfl
  | succ steps ih =>
    have hsum : k + (steps + 1) = k + 1 + steps := by omega
    have hcount := primeCounting_succ k
    rw [growLoop, classifyCandidate_primesUpTo hk (by omega), hsum, length_primesUpTo]
    by_cases hprime : (k + 1).Prime
    · have happend := primesUpTo_succ k
      rw [if_pos hprime] at hcount happend
      rw [if_pos (decide_eq_true hprime), ← happend]
      by_cases hfull : Nat.primeCounting k = capacity
      · have hmono := Nat.monotone_primeCounting (Nat.le_add_right (k + 1) steps)
        rw [if_pos hfull, if_neg (by omega), ← hfull, nth_primeCounting hprime]
        rfl
      · rw [if_neg hfull]
        exact ih (k + 1) (by omega) (by omega) (by omega)
    · have hsame := primesUpTo_succ k
      rw [if_neg hprime] at hcount hsame
      rw [if_neg (by simpa using hprime), ← List.append_nil (primesUpTo k), ← hsame]
      exact ih (k + 1) (by omega) (by omega) (by omega)

/-- GrowTo of a cache that meets the invariants (40_prime_cache.md R101). -/
theorem Cache.Inv.growTo_eq {capacity n : Nat} {c : Cache} (h : c.Inv capacity) (hn : n < 2 ^ 32) :
    growTo capacity n c =
      if Nat.primeCounting n ≤ capacity then .done () (cacheUpTo (max c.hw.toNat n))
      else .full (BitVec.ofNat 32 (Nat.nth Nat.Prime capacity)) (cacheUpTo (Nat.nth Nat.Prime capacity - 1)) := by
  by_cases hle : n ≤ c.hw.toNat
  · rw [growTo_of_le hle, if_pos ((Nat.monotone_primeCounting hle).trans h.primeCounting_le), max_eq_left hle,
      ← h.eq_cacheUpTo]
  · rw [growTo, if_neg hle, h.primes_eq,
      growLoop_primesUpTo capacity _ _ h.two_le (by omega) h.primeCounting_le,
      Nat.add_sub_cancel' (by omega), max_eq_right (by omega)]

theorem Cache.Inv.growTo_done {capacity n : Nat} {c : Cache} (h : c.Inv capacity) (hn : n < 2 ^ 32)
    (hfits : Nat.primeCounting n ≤ capacity) :
    growTo capacity n c = .done () (cacheUpTo (max c.hw.toNat n)) := by
  rw [h.growTo_eq hn, if_pos hfits]

/-- GrowTo keeps the invariants, whether it finishes or not (10_state.md R23, 40_prime_cache.md R101). -/
theorem Cache.Inv.growTo_inv {capacity n : Nat} {c : Cache} (h : c.Inv capacity) (hn : n < 2 ^ 32) :
    (growTo capacity n c).cache.Inv capacity := by
  have hlow := h.two_le
  have hhigh := c.hw.isLt
  have hcount := h.primeCounting_le
  rw [h.growTo_eq hn]
  by_cases hfits : Nat.primeCounting n ≤ capacity
  · rw [if_pos hfits]
    refine cacheUpTo_inv (le_max_of_le_left hlow) (max_lt hhigh hn) ?_
    rcases max_choice c.hw.toNat n with hmax | hmax <;> rw [hmax]
    · exact hcount
    · exact hfits
  · have hbelow := primeCounting_le_iff.mp hcount
    have habove : Nat.nth Nat.Prime capacity ≤ n := Nat.not_lt.mp fun hlt => hfits (primeCounting_le_iff.mpr hlt)
    rw [if_neg hfits]
    exact cacheUpTo_inv (by omega) (by omega) (primeCounting_le_iff.mpr (by omega))

theorem GrowthOf.inv {c c' : Cache} (h : GrowthOf c c') (hinv : c.Inv Config.primeCapacity) :
    c'.Inv Config.primeCapacity := by
  obtain ⟨n, hn, rfl⟩ := h
  exact hinv.growTo_inv hn

/-- The roots of 32-bit operands need no more primes than the least capacity holds, so growing to one never fails
(00_scope.md R6, 40_prime_cache.md R103). -/
theorem Cache.Inv.growTo_ceilSqrt {c : Cache} (h : c.Inv Config.primeCapacity) (n : Word) :
    growTo Config.primeCapacity (ceilSqrt n.toNat) c =
      .done () (cacheUpTo (max c.hw.toNat (ceilSqrt n.toNat))) := by
  have hroot := ceilSqrt_toNat_le n
  refine h.growTo_done (by omega) ?_
  calc Nat.primeCounting (ceilSqrt n.toNat) ≤ Nat.primeCounting 65536 := Nat.monotone_primeCounting hroot
    _ ≤ 6542 := PrimeCount.primeCounting_65536_le
    _ ≤ Config.primeCapacity := Config.least_le_primeCapacity

/-! ## GROW_TO -/

theorem growToCommand_of_valid (capacity : Nat) {s : State} (h : s.args[0] ≤ s.nmax) :
    growToCommand capacity s = finishGrown (fun _ => []) (growTo capacity s.args[0].toNat s.cache) s := by
  rw [growToCommand, State.arg_zero, checkAtMostNmax_of_valid _ h]

theorem finishGrown_done {α : Type} (result : α → List Word) (a : α) (c : Cache) (s : State) :
    finishGrown result (.done a c) s = afterCommit s (result a) c s.rng s.seeded := rfl

theorem finishGrown_full {α : Type} (result : α → List Word) (k : Word) (c : Cache) (s : State) :
    finishGrown result (.full k c) s = afterError s .cacheFull k c := rfl

/-- Settles O32: the primes up to the operand fit, so GrowTo finishes. -/
theorem growToClassifiesEveryIntegerUpToN : Obligations.GrowToClassifiesEveryIntegerUpToN := by
  intro s hinv hmax hfits
  rw [exec, execGrowTo, growToCommand_of_valid _ hmax, hinv.growTo_done s.args[0].isLt hfits, finishGrown_done]

/-- Settles O33: the primes up to the operand do not fit, so GrowTo stops at the first that does not. -/
theorem growToKeepsTheGrowthWhenTheCacheIsFull : Obligations.GrowToKeepsTheGrowthWhenTheCacheIsFull := by
  refine ⟨fun s => rfl, fun capacity s hinv hmax hfull => ?_⟩
  rw [growToCommand_of_valid _ hmax, hinv.growTo_eq s.args[0].isLt, if_neg (Nat.not_le.mpr hfull), finishGrown_full]

/-- A GROW_TO without error has classified every integer up to its operand, from any state (40_prime_cache.md R101). -/
theorem growTo_reaches {s t : State} (hexec : exec .growTo s = .next t) (herr : t.err = false) :
    s.args[0] ≤ s.nmax ∧ s.args[0].toNat ≤ t.cache.hw.toNat := by
  have hmax : s.args[0] ≤ s.nmax := by
    by_contra hnot
    rw [exec_growTo_of_invalid (BitVec.not_le.mp hnot), Host.Outcome.next.injEq] at hexec
    subst hexec
    cases herr
  refine ⟨hmax, ?_⟩
  rw [exec, execGrowTo, growToCommand_of_valid _ hmax, Host.Outcome.next.injEq] at hexec
  subst hexec
  obtain ⟨hle, heq⟩ | ⟨-, c, heq, -, hhw⟩ | ⟨-, j, c, heq, -⟩ :=
    growTo_cases Config.primeCapacity s.args[0].isLt s.cache
  · rw [heq, finishGrown_done]
    exact hle
  · rw [heq, finishGrown_done]
    exact hhw.ge
  · rw [heq, finishGrown_full] at herr
    cases herr

/-- Settles O34: after the first call every integer up to the second operand is classified. -/
theorem growToIsIdempotent : Obligations.GrowToIsIdempotent := by
  intro s t m hexec herr hm
  obtain ⟨hmax, hreach⟩ := growTo_reaches hexec herr
  obtain ⟨-, hnmax, -⟩ := commandsKeepTheHostsRegisters .growTo s t hexec
  have harg : (t.args.set 0 m)[0] = m := Vector.getElem_set_self _
  have hvalid : ({ t with args := t.args.set 0 m } : State).args[0] ≤ t.nmax := by
    rw [harg, hnmax]
    exact BitVec.le_trans hm hmax
  have hle : ({ t with args := t.args.set 0 m } : State).args[0].toNat ≤ t.cache.hw.toNat := by
    rw [harg]
    exact le_trans hm hreach
  rw [exec, execGrowTo, growToCommand_of_valid _ hvalid, growTo_of_le hle, finishGrown_done]

/-! ## IS_PRIME, CLASSIFY and PRIME_AT -/

/-- IsPrimeCore decides primality and grows the cache to the root (40_prime_cache.md R102, R103). -/
theorem Cache.Inv.isPrimeCore_eq {c : Cache} (h : c.Inv Config.primeCapacity) (n : Word) :
    isPrimeCore Config.primeCapacity n c =
      .done (decide n.toNat.Prime) (cacheUpTo (max c.hw.toNat (ceilSqrt n.toNat))) := by
  have hroot := ceilSqrt_le_self n.toNat
  have hlow := h.two_le
  have hmem := h.mem_primes_iff n
  unfold isPrimeCore
  by_cases hle : n.toNat ≤ c.hw.toNat
  · rw [max_eq_left (hroot.trans hle), ← h.eq_cacheUpTo]
    by_cases hprime : n.toNat.Prime
    · rw [if_pos (hmem.mpr ⟨hprime, hle⟩), decide_eq_true hprime]
    · rw [if_neg fun hin => hprime (hmem.mp hin).1, if_pos (BitVec.le_def.mpr hle), decide_eq_false hprime]
  · have hlt : ceilSqrt n.toNat < n.toNat := by
      have hpred : ceilSqrt n.toNat ≤ n.toNat - 1 := by
        obtain ⟨k, hk⟩ : ∃ k, n.toNat = k + 3 := ⟨n.toNat - 3, by omega⟩
        rw [ceilSqrt_le_iff, hk, show k + 3 - 1 = k + 2 from rfl]
        nlinarith
      omega
    rw [if_neg fun hin => hle (hmem.mp hin).2, if_neg fun hn => hle (BitVec.le_def.mp hn), h.growTo_ceilSqrt]
    have hscan := scan_primesUpTo (n := n.toNat) (h := max c.hw.toNat (ceilSqrt n.toNat)) (by omega)
      (le_max_right _ _) (by omega) (by omega)
    simp only [cacheUpTo, hscan]

/-- Settles O35: IsPrimeCore answers primality, and the growth to the root fits. -/
theorem isPrimeAnswersPrimality : Obligations.IsPrimeAnswersPrimality := by
  intro s hinv hmax
  rw [exec, execIsPrime, isPrimeCommand, State.arg_zero, checkAtMostNmax_of_valid _ hmax, hinv.isPrimeCore_eq,
    finishGrown_done]
  simp only [decide_eq_true_eq]

/-- Settles O37: under the invariants the entries up to `hw` are the primes up to `hw`. -/
theorem classifyTellsPrimesFromNonPrimes : Obligations.ClassifyTellsPrimesFromNonPrimes := by
  intro s capacity hinv
  rw [exec_classify, classOf]
  split
  · rfl
  · next hclassified =>
    have hle : s.args[0].toNat ≤ s.cache.hw.toNat := BitVec.not_lt.mp hclassified
    simp only [hinv.mem_primes_iff, hle, and_true]

/-- PRIME_AT of an entry's index is the commit of the entry (40_prime_cache.md R114). -/
theorem exec_primeAt_of_valid {s : State} (h : s.args[0].toNat < s.cache.primes.length) :
    exec .primeAt s = .next (afterCommit s [s.cache.primes[s.args[0].toNat]] s.cache s.rng s.seeded) := by
  rw [exec, execPrimeAt, State.arg_zero, List.getElem?_eq_getElem h]
  rfl

/-- Settles O38: the entries are the primes by index. -/
theorem primeAtGivesTheIthPrime : Obligations.PrimeAtGivesTheIthPrime := by
  intro s capacity hinv hindex
  refine ⟨exec_primeAt_of_valid hindex, ?_⟩
  have hbound : Nat.nth Nat.Prime s.args[0].toNat ≤ s.cache.hw.toNat := by
    rw [hinv.length_eq] at hindex
    exact Nat.not_lt.mp fun hlt => absurd (primeCounting_le_iff.mpr hlt) (Nat.not_le.mpr hindex)
  simp only [hinv.primes_eq, primesUpTo_eq_map_nth, List.getElem_map, List.getElem_range]
  exact toNat_ofNat_of_lt (by omega)

end Sys2Proof.Machine

/-! SUPPORT. The invariants of the whole block (10_state.md R23, R24, R32, R41): they hold at reset and every step keeps
them, with the statements ResetMeetsTheInvariant and EveryStepKeepsTheInvariant. -/

namespace Sys2Proof.Machine

/-! ## Reset -/

theorem one_le_primeCapacity : 1 ≤ Config.primeCapacity := le_trans (by decide) Config.least_le_primeCapacity

/-- A state whose block fields are those of reset satisfies the invariants (70_reset_and_hazards.md R232). -/
theorem resetEvent_inv (s : State) : (resetEvent s).Inv where
  cache := Cache.initial_inv one_le_primeCapacity
  unseeded _ := rfl
  error_code := rfl
  busy_status h := nomatch h
  idle_hold _ := rfl
  error_results h := nomatch h
  fresh _ _ := ⟨rfl, rfl⟩

/-- Settles O18: the reset state is the reset event's result on itself. -/
theorem resetMeetsTheInvariant : Obligations.ResetMeetsTheInvariant := resetEvent_inv State.reset

/-! ## The sequencer's steps -/

theorem CacheEffect.inv {i : Instr} {c c' : Cache} (h : CacheEffect i c c') (hinv : c.Inv Config.primeCapacity) :
    c'.Inv Config.primeCapacity := by
  cases h with
  | kept => exact hinv
  | reset => exact Cache.initial_inv one_le_primeCapacity
  | grown _ hgrowth => exact hgrowth.inv hinv

theorem ErrorCacheEffect.inv {i : Instr} {e : ErrKind} {c c' : Cache} (h : ErrorCacheEffect i e c c')
    (hinv : c.Inv Config.primeCapacity) : c'.Inv Config.primeCapacity := by
  cases h with
  | kept => exact hinv
  | full _ _ hgrowth => exact hgrowth.inv hinv

theorem RngEffect.unseeded {i : Instr} {s : State} {g : Rng} {b : Bool} (h : RngEffect i s g b)
    (hinv : s.seeded = false → s.rng = Rng.zero) : b = false → g = Rng.zero := by
  cases h with
  | kept => exact hinv
  | seeded => exact fun hfalse => nomatch hfalse

/-- A successful commit meets the invariants when the engines do: the status and RES fields are fixed (30_encoding.md
R93). -/
theorem afterCommit_inv (s : State) (result : List Word) {c : Cache} {g : Rng} {b : Bool}
    (hcache : c.Inv Config.primeCapacity) (hrng : b = false → g = Rng.zero) :
    (afterCommit s result c g b).Inv where
  cache := hcache
  unseeded := hrng
  error_code := rfl
  busy_status h := nomatch h
  idle_hold _ := rfl
  error_results h := nomatch h
  fresh _ h := nomatch h

/-- An error commit meets the invariants when the engines do (60_exceptions.md R201). -/
theorem afterError_inv {s : State} (e : ErrKind) (info : Word) {c : Cache} (hcache : c.Inv Config.primeCapacity)
    (hrng : s.seeded = false → s.rng = Rng.zero) : (afterError s e info c).Inv where
  cache := hcache
  unseeded := hrng
  error_code := rfl
  busy_status h := nomatch h
  idle_hold _ := rfl
  error_results _ := rfl
  fresh _ h := nomatch h

theorem Effect.inv {i : Instr} {s t : State} (h : Effect i s t) (hinv : s.Inv) : t.Inv := by
  cases h with
  | commit result hc hg => exact afterCommit_inv s result (hc.inv hinv.cache) (hg.unseeded hinv.unseeded)
  | error e info hc => exact afterError_inv e info (hc.inv hinv.cache) hinv.unseeded

/-! ## The host's steps -/

/-- The invariants say nothing of the host's registers, of OVR or of the host's own fields, and of `hold` only while
IDLE. -/
theorem State.Inv.of_frame {s t : State} (h : s.Inv) (hold : s.phase = .idle → t.hold = 0)
    (hframe : t = { s with
      ovr := t.ovr, args := t.args, nmax := t.nmax, seedLen := t.seedLen, seedBuf := t.seedBuf, host := t.host,
      reads := t.reads, hold := t.hold }) : t.Inv := by
  rw [hframe]
  exact ⟨h.cache, h.unseeded, h.error_code, h.busy_status, hold, h.error_results, h.fresh⟩

theorem State.Inv.hold_pred {s : State} (h : s.Inv) (hidle : s.phase = .idle) : s.hold - 1 = 0 := by
  rw [h.idle_hold hidle]

theorem State.Inv.hostDone {s : State} (h : s.Inv) : s.hostDone.Inv := h.of_frame h.hold_pred rfl

theorem State.Inv.logRead {s : State} (h : s.Inv) (v : Word) : (s.logRead v).Inv := h.of_frame h.idle_hold rfl

/-- An acceptance clears DONE, ERR and ERRCODE and makes the block BUSY (30_encoding.md R90). -/
theorem State.Inv.acceptCommand {s : State} (h : s.Inv) (delay : Nat) (w : Word) :
    (acceptCommand delay w s).Inv where
  cache := h.cache
  unseeded := h.unseeded
  error_code := rfl
  busy_status _ := ⟨rfl, rfl⟩
  idle_hold hidle := nomatch hidle
  error_results herr := nomatch herr
  fresh hidle := nomatch hidle

theorem State.Inv.unlessBusy {s : State} (h : s.Inv) {body : State → State} (hbody : (body s).Inv) :
    (unlessBusy body s).Inv := by
  obtain ⟨-, heq⟩ | ⟨-, heq⟩ := unlessBusy_cases body s <;> rw [heq]
  · exact hbody
  · exact h.of_frame h.idle_hold rfl

theorem State.Inv.writeReg {s : State} (h : s.Inv) (delay : Nat) (v : Word) (r : Reg) :
    (s.writeReg delay v r).Inv := by
  cases r with
  | cmd => exact h.unlessBusy (h.acceptCommand delay v)
  | arg _ | nmax | seedLen | seedBuf _ =>
    rw [State.writeReg]
    exact h.unlessBusy (h.of_frame h.idle_hold rfl)
  | status => exact h.of_frame h.idle_hold rfl
  | _ => exact h

theorem State.Inv.performHostOp {op : HostOp} {s t : State} (h : s.Inv) (hop : performHostOp op s = .next t) :
    t.Inv := by
  obtain ⟨_, _, _, -, -, rfl⟩ | ⟨_, _, _, _, -, -, rfl⟩ | ⟨-, -, rfl⟩ | ⟨-, -, rfl⟩ | ⟨-, rfl⟩ :=
    performHostOp_cases hop
  · exact (h.logRead _).hostDone
  · exact h.hostDone.writeReg _ _ _
  · exact h.of_frame h.hold_pred rfl
  · exact (h.logRead _).hostDone
  · exact resetEvent_inv _

/-! ## The statement -/

/-- Settles O19: one case for each kind of step. -/
theorem everyStepKeepsTheInvariant : Obligations.EveryStepKeepsTheInvariant := by
  intro s t hinv h
  obtain ⟨-, i, -, hstep⟩ | ⟨-, e, -, hstep⟩ | ⟨-, op, rest, -, hstep⟩ | ⟨-, -, hstep⟩ := step_cases s <;>
    rw [hstep] at h
  · exact (effect_of_exec h).inv hinv
  · cases h
    exact afterError_inv _ _ hinv.cache hinv.unseeded
  · exact hinv.performHostOp h
  · cases h
    exact hinv

end Sys2Proof.Machine

/-! SUPPORT. The factorizer against the prime factorization (41_factorizer.md R130 to R134), with the statements
FactorizeGivesThePrimeFactorization, FactorizationFitsTheResultRegisters, PhiGivesTheTotient, SigmaGivesTheDivisorSum
and AliquotGivesTheProperDivisorSum. -/

namespace Sys2Proof.Machine

/-! ## The prime divisors in ascending order -/

theorem mem_primeDivisors {n : Nat} (hn : n ≠ 0) (p : Nat) : p ∈ primeDivisors n ↔ p.Prime ∧ p ∣ n := by
  simp only [primeDivisors, List.mem_filter, List.mem_range, decide_eq_true_eq, Nat.lt_succ_iff,
    and_iff_right_iff_imp]
  exact fun h => Nat.le_of_dvd (Nat.pos_of_ne_zero hn) h.2

theorem primeDivisors_ascending (n : Nat) : (primeDivisors n).Pairwise (· < ·) :=
  List.pairwise_lt_range.filter _

theorem primeDivisors_toFinset {n : Nat} (hn : n ≠ 0) : (primeDivisors n).toFinset = n.primeFactors := by
  ext p
  rw [List.mem_toFinset, mem_primeDivisors hn, Nat.mem_primeFactors_of_ne_zero hn]

/-- A product over the prime divisors is the product along their list. -/
theorem prod_primeFactors_eq {n : Nat} (hn : n ≠ 0) (f : Nat → Nat) :
    ∏ p ∈ n.primeFactors, f p = ((primeDivisors n).map f).prod := by
  rw [← primeDivisors_toFinset hn]
  exact List.prod_toFinset f (primeDivisors_ascending n).nodup

/-- The factorization as the pairs that R130 lists (41_factorizer.md R131). -/
def factorPairs (n : Nat) : List (Nat × Nat) := (primeDivisors n).map fun p => (p, n.factorization p)

/-- The least prime divisor comes first, and the others are those of what is left without it. -/
theorem primeDivisors_eq_cons {n p : Nat} (hn : n ≠ 0) (hp : p.Prime) (hdvd : p ∣ n)
    (hleast : ∀ q, q.Prime → q ∣ n → p ≤ q) :
    primeDivisors n = p :: primeDivisors (n / p ^ n.factorization p) := by
  have hrest : n / p ^ n.factorization p ≠ 0 := (Nat.ordCompl_pos p hn).ne'
  have hnot : ¬ p ∣ n / p ^ n.factorization p := Nat.not_dvd_ordCompl hp hn
  have hmem : ∀ q, q ∈ primeDivisors (n / p ^ n.factorization p) ↔ q.Prime ∧ q ∣ n ∧ q ≠ p := by
    intro q
    rw [mem_primeDivisors hrest]
    refine and_congr_right fun hq => ⟨fun h => ⟨h.trans (Nat.ordCompl_dvd n p), ?_⟩, fun ⟨h, hne⟩ => ?_⟩
    · rintro rfl
      exact hnot h
    · exact Nat.dvd_ordCompl_of_dvd_not_dvd h fun hpq => hne ((Nat.prime_dvd_prime_iff_eq hp hq).mp hpq).symm
  refine (primeDivisors_ascending n).eq_of_mem_iff (List.pairwise_cons.mpr ⟨?_, primeDivisors_ascending _⟩) fun q => ?_
  · intro q hq
    obtain ⟨hprime, hqn, hne⟩ := (hmem q).mp hq
    exact lt_of_le_of_ne (hleast q hprime hqn) hne.symm
  · rw [mem_primeDivisors hn, List.mem_cons, hmem]
    constructor
    · rintro ⟨hq, hqn⟩
      by_cases heq : q = p
      · exact .inl heq
      · exact .inr ⟨hq, hqn, heq⟩
    · rintro (rfl | ⟨hq, hqn, -⟩)
      · exact ⟨hp, hdvd⟩
      · exact ⟨hq, hqn⟩

theorem factorPairs_eq_cons {n p : Nat} (hn : n ≠ 0) (hp : p.Prime) (hdvd : p ∣ n)
    (hleast : ∀ q, q.Prime → q ∣ n → p ≤ q) :
    factorPairs n = (p, n.factorization p) :: factorPairs (n / p ^ n.factorization p) := by
  rw [factorPairs, primeDivisors_eq_cons hn hp hdvd hleast, List.map_cons, factorPairs]
  refine congrArg _ (List.map_congr_left fun q hq => ?_)
  have hne : q ≠ p := by
    rintro rfl
    exact Nat.not_dvd_ordCompl hp hn ((mem_primeDivisors (Nat.ordCompl_pos q hn).ne' q).mp hq).2
  rw [Nat.factorization_ordCompl, Finsupp.erase_ne hne]

/-! ## The scan -/

/-- The inner loop divides `p` out and counts its exponent (41_factorizer.md R130). -/
theorem divideOut_eq {p : Nat} (hp : p.Prime) {fuel r : Nat} (hr : r ≠ 0) (hfuel : r ≤ fuel) (e : Nat) :
    divideOut p fuel r e = (r / p ^ r.factorization p, e + r.factorization p) := by
  induction fuel generalizing r e with
  | zero => omega
  | succ fuel ih =>
    rw [divideOut]
    split
    · next hzero =>
      have hdvd : p ∣ r := Nat.dvd_of_mod_eq_zero hzero
      have hlt : r / p < r := Nat.div_lt_self (Nat.pos_of_ne_zero hr) hp.one_lt
      have hquot : r / p ≠ 0 := (Nat.div_pos (Nat.le_of_dvd (Nat.pos_of_ne_zero hr) hdvd) hp.pos).ne'
      have hexp : (r / p).factorization p = r.factorization p - 1 := by
        rw [Nat.factorization_div hdvd, Finsupp.tsub_apply, hp.factorization_self]
      have hpos := hp.factorization_pos_of_dvd hr hdvd
      rw [ih hquot (by omega), Nat.ordCompl_div_of_dvd hp hdvd, hexp]
      congr 1
      omega
    · next hnonzero =>
      have hnot : ¬ p ∣ r := fun hdvd => hnonzero (Nat.mod_eq_zero_of_dvd hdvd)
      rw [Nat.factorization_eq_zero_of_not_dvd hnot, Nat.pow_zero, Nat.div_one, Nat.add_zero]

/-- The scan enters the loop after its first division (41_factorizer.md R130). -/
theorem divideOut_div_eq {p r : Nat} (hp : p.Prime) (hr : r ≠ 0) (hdvd : p ∣ r) :
    divideOut p r (r / p) 1 = (r / p ^ r.factorization p, r.factorization p) := by
  have hwhole := divideOut_eq hp hr (Nat.le_succ r) 0
  rwa [divideOut, if_pos (Nat.mod_eq_zero_of_dvd hdvd), Nat.zero_add, Nat.zero_add] at hwhole

/-- A remainder without a prime divisor up to its root is 1 or prime (41_factorizer.md R130). -/
theorem lastFactor_eq {r : Nat} (hr : r ≠ 0) (h : ∀ q, q.Prime → q ≤ ceilSqrt r → ¬ q ∣ r) :
    lastFactor r = factorPairs r := by
  unfold lastFactor
  split
  · next hlarge =>
    have hprime : r.Prime := prime_of_no_divisor_up_to_root hlarge h
    have hone : factorPairs 1 = [] := by decide
    rw [factorPairs_eq_cons hr hprime dvd_rfl fun q hq hdvd => ((Nat.prime_dvd_prime_iff_eq hq hprime).mp hdvd).ge,
      hprime.factorization_self, Nat.pow_one, Nat.div_self hprime.pos, hone]
  · next hsmall =>
    obtain rfl : r = 1 := by omega
    decide

/-- The scan over ascending primes that include every prime divisor up to the root gives the factorization
(41_factorizer.md R130). -/
theorem factorScan_eq {ps : List Word} (hasc : ps.Pairwise (· < ·)) (hprime : ∀ p ∈ ps, p.toNat.Prime) {r : Nat}
    (hr : r ≠ 0) (hall : ∀ q, q.Prime → q ≤ ceilSqrt r → q ∣ r → ∃ p ∈ ps, p.toNat = q) :
    factorScan ps r = factorPairs r := by
  induction ps generalizing r with
  | nil =>
    refine lastFactor_eq hr fun q hq hle hdvd => ?_
    obtain ⟨p, hp, -⟩ := hall q hq hle hdvd
    exact absurd hp List.not_mem_nil
  | cons p ps ih =>
    obtain ⟨hhead, htail⟩ := List.pairwise_cons.mp hasc
    obtain ⟨hp, hps⟩ := List.forall_mem_cons.mp hprime
    have hleast : ∀ q, q.Prime → q ≤ ceilSqrt r → q ∣ r → p.toNat ≤ q := by
      intro q hq hle hdvd
      obtain ⟨p', hp', rfl⟩ := hall q hq hle hdvd
      obtain rfl | hin := List.mem_cons.mp hp'
      · exact le_rfl
      · exact le_of_lt (hhead p' hin)
    have hothers : ∀ q, q.Prime → q ≤ ceilSqrt r → q ∣ r → q ≠ p.toNat → ∃ p' ∈ ps, p'.toNat = q := by
      intro q hq hle hdvd hne
      obtain ⟨p', hp', rfl⟩ := hall q hq hle hdvd
      obtain rfl | hin := List.mem_cons.mp hp'
      · exact absurd rfl hne
      · exact ⟨p', hin, rfl⟩
    rw [factorScan]
    split
    · next hroot =>
      split
      · next hzero =>
        have hdvd : p.toNat ∣ r := Nat.dvd_of_mod_eq_zero hzero
        have hleast' : ∀ q, q.Prime → q ∣ r → p.toNat ≤ q := by
          intro q hq hqr
          by_cases hle : q ≤ ceilSqrt r
          · exact hleast q hq hle hqr
          · exact hroot.trans (Nat.le_of_not_le hle)
        rw [factorPairs_eq_cons hr hp hdvd hleast', divideOut_div_eq hp hr hdvd]
        refine congrArg _ (ih htail hps (Nat.ordCompl_pos _ hr).ne' fun q hq hle hqr => ?_)
        refine hothers q hq (hle.trans (ceilSqrt_mono (Nat.ordCompl_le r _))) (hqr.trans (Nat.ordCompl_dvd r _)) ?_
        rintro rfl
        exact Nat.not_dvd_ordCompl hp hr hqr
      · next hnonzero =>
        refine ih htail hps hr fun q hq hle hqr => hothers q hq hle hqr ?_
        rintro rfl
        exact hnonzero (Nat.mod_eq_zero_of_dvd hqr)
    · next hroot => exact lastFactor_eq hr fun q hq hle hdvd => hroot ((hleast q hq hle hdvd).trans hle)

/-- Factorize(n) of a cache that meets the invariants (41_factorizer.md R130). -/
theorem Cache.Inv.factorize_eq {c : Cache} (h : c.Inv Config.primeCapacity) {n : Word} (hn : n ≠ 0) :
    factorize Config.primeCapacity n.toNat c =
      .done (factorPairs n.toNat) (cacheUpTo (max c.hw.toNat (ceilSqrt n.toNat))) := by
  have hbound : max c.hw.toNat (ceilSqrt n.toNat) < 2 ^ 32 :=
    max_lt c.hw.isLt ((ceilSqrt_toNat_le n).trans_lt (by decide))
  have hscan : factorScan (primesUpTo (max c.hw.toNat (ceilSqrt n.toNat))) n.toNat = factorPairs n.toNat := by
    refine factorScan_eq (primesUpTo_ascending hbound) (fun p hp => ((mem_primesUpTo hbound p).mp hp).1)
      (BitVec.toNat_ne.mp hn) fun q hq hle _ => ?_
    have hq32 : (BitVec.ofNat 32 q).toNat = q := toNat_ofNat_of_lt (by omega)
    refine ⟨BitVec.ofNat 32 q, (mem_primesUpTo hbound _).mpr ?_, hq32⟩
    rw [hq32]
    exact ⟨hq, le_max_of_le_right hle⟩
  rw [factorize, h.growTo_ceilSqrt]
  exact congrArg (fun l => Grown.done l _) hscan

/-- A factorizer command with its operand in range is the commit of its result from the factorization, with the cache
grown to the root (41_factorizer.md R130, R135). -/
theorem factorizerCommand_of_valid (result : Nat → List (Nat × Nat) → List Word) {s : State}
    (hinv : s.cache.Inv Config.primeCapacity) (hne : s.args[0] ≠ 0) (hmax : s.args[0] ≤ s.nmax) :
    factorizerCommand result Config.primeCapacity s =
      afterCommit s (result s.args[0].toNat (factorPairs s.args[0].toNat))
        (cacheUpTo (max s.cache.hw.toNat (ceilSqrt s.args[0].toNat))) s.rng s.seeded := by
  rw [factorizerCommand, State.arg_zero, checkPositiveAtMostNmax_of_valid _ hne hmax, hinv.factorize_eq hne,
    finishGrown_done]

/-! ## FACTORIZE -/

theorem factorResult_factorPairs (n : Nat) : factorResult (factorPairs n) =
    BitVec.ofNat 32 (primeDivisors n).length ::
      (primeDivisors n).flatMap fun p => [BitVec.ofNat 32 p, BitVec.ofNat 32 (n.factorization p)] := by
  rw [factorResult, factorPairs, List.length_map, List.flatMap_map]

/-- Settles O39: the scan gives the prime divisors with their exponents. -/
theorem factorizeGivesThePrimeFactorization : Obligations.FactorizeGivesThePrimeFactorization := by
  intro s hinv hne hmax
  rw [exec, execFactorize, factorizerCommand_of_valid _ hinv hne hmax, factorResult_factorPairs]

/-- The product of a list of ascending primes is at least that of as many consecutive primes. -/
theorem prod_nth_le_prod {ps : List Nat} (k : Nat) (hasc : ps.Pairwise (· < ·)) (hprime : ∀ p ∈ ps, p.Prime)
    (hlow : ∀ p ∈ ps, Nat.nth Nat.Prime k ≤ p) :
    ∏ i ∈ Finset.range ps.length, Nat.nth Nat.Prime (k + i) ≤ ps.prod := by
  induction ps generalizing k with
  | nil => exact le_rfl
  | cons p ps ih =>
    obtain ⟨hhead, htail⟩ := List.pairwise_cons.mp hasc
    obtain ⟨hp, hps⟩ := List.forall_mem_cons.mp hprime
    obtain ⟨hkp, -⟩ := List.forall_mem_cons.mp hlow
    have hnext : ∀ q ∈ ps, Nat.nth Nat.Prime (k + 1) ≤ q := fun q hq =>
      Nat.not_lt.mp fun hlt => absurd (Nat.le_nth_of_lt_nth_succ hlt (hps q hq)) (by have := hhead q hq; omega)
    have htailProd := ih (k + 1) htail hps hnext
    rw [List.length_cons, Finset.prod_range_succ', List.prod_cons, Nat.mul_comm p]
    refine Nat.mul_le_mul ?_ hkp
    simpa only [Nat.add_assoc, Nat.add_comm 1] using htailProd

/-- The product of the first ten primes is above every 32-bit operand (41_factorizer.md R131 (d)). -/
theorem prod_first_ten_primes : ∏ i ∈ Finset.range 10, Nat.nth Nat.Prime i = 6469693230 := by
  have nth_eq : ∀ {i p : Nat}, p.Prime → Nat.count Nat.Prime p = i → Nat.nth Nat.Prime i = p :=
    fun hp hcount => hcount ▸ Nat.nth_count hp
  simp only [Finset.prod_range_succ, Finset.prod_range_zero, Nat.nth_prime_zero_eq_two, Nat.nth_prime_one_eq_three,
    Nat.nth_prime_two_eq_five, Nat.nth_prime_three_eq_seven, Nat.nth_prime_four_eq_eleven,
    nth_eq (i := 5) (p := 13) (by norm_num) (by decide), nth_eq (i := 6) (p := 17) (by norm_num) (by decide),
    nth_eq (i := 7) (p := 19) (by norm_num) (by decide), nth_eq (i := 8) (p := 23) (by norm_num) (by decide),
    nth_eq (i := 9) (p := 29) (by norm_num) (by decide)]
  norm_num

/-- A 32-bit operand has at most nine distinct primes (41_factorizer.md R131 (d)). -/
theorem length_primeDivisors_le {n : Nat} (hn : n ≠ 0) (h32 : n < 2 ^ 32) : (primeDivisors n).length ≤ 9 := by
  have hmem : ∀ p ∈ primeDivisors n, p.Prime := fun p hp => ((mem_primeDivisors hn p).mp hp).1
  have hprod := prod_nth_le_prod 0 (primeDivisors_ascending n) hmem fun p hp => by
    rw [Nat.nth_prime_zero_eq_two]
    exact (hmem p hp).two_le
  have hle : (primeDivisors n).prod ≤ n := by
    have hlist := prod_primeFactors_eq hn id
    rw [List.map_id] at hlist
    rw [← hlist]
    exact Nat.le_of_dvd (Nat.pos_of_ne_zero hn) (Nat.prod_primeFactors_dvd n)
  by_contra hmany
  have hten : ∏ i ∈ Finset.range 10, Nat.nth Nat.Prime i ≤
      ∏ i ∈ Finset.range (primeDivisors n).length, Nat.nth Nat.Prime i :=
    Finset.prod_le_prod_of_subset_of_one_le' (Finset.range_subset_range.mpr (by omega))
      fun i _ _ => (Nat.prime_nth_prime i).one_le
  simp only [Nat.zero_add] at hprod
  rw [prod_first_ten_primes] at hten
  omega

/-- Exponents of a 32-bit operand are below 32 (41_factorizer.md R131 (e)). -/
theorem factorization_lt_of_lt_two_pow {n k p : Nat} (hn : n ≠ 0) (hlt : n < 2 ^ k) (hp : p.Prime) :
    n.factorization p < k := by
  have hpow : 2 ^ n.factorization p < 2 ^ k :=
    calc 2 ^ n.factorization p ≤ p ^ n.factorization p := Nat.pow_le_pow_left hp.two_le _
      _ ≤ n := Nat.ordProj_le p hn
      _ < 2 ^ k := hlt
  exact (Nat.pow_lt_pow_iff_right (by decide)).mp hpow

section Pairs

variable {α β : Type} (f g : α → β) (l : List α)

theorem length_flatMap_pair : (l.flatMap fun a => [f a, g a]).length = 2 * l.length := by
  induction l with
  | nil => rfl
  | cons a l ih => rw [List.flatMap_cons, List.length_append, ih, List.length_cons]; simp; omega

/-- The second member of pair `j` stands at index `2 j + 1`. -/
theorem getD_flatMap_pair_snd (d : β) (j : Nat) (h : j < l.length) :
    (l.flatMap fun a => [f a, g a]).getD (2 * j + 1) d = g l[j] := by
  induction l generalizing j with
  | nil => simp at h
  | cons a l ih =>
    cases j with
    | zero => rfl
    | succ j => exact ih j (by simpa using h)

end Pairs

theorem afterCommit_res_getElem (s : State) (result : List Word) (c : Cache) (g : Rng) (b : Bool) (i : Nat)
    (hi : i < 32) : (afterCommit s result c g b).res[i] = result.getD i 0 :=
  Vector.getElem_ofFn hi

/-- Settles O40: at most nine pairs, and each exponent is that of a prime divisor of a 32-bit operand. -/
theorem factorizationFitsTheResultRegisters : Obligations.FactorizationFitsTheResultRegisters := by
  intro s hinv hne hmax
  have hn : s.args[0].toNat ≠ 0 := BitVec.toNat_ne.mp hne
  have hnine := length_primeDivisors_le hn s.args[0].isLt
  refine ⟨_, factorizeGivesThePrimeFactorization s hinv hne hmax, rfl, ?_⟩
  simp only [Fin.getElem_fin, afterCommit_res_getElem]
  generalize hps : primeDivisors s.args[0].toNat = ps at hnine
  rw [List.getD_cons_zero, toNat_ofNat_of_lt (by omega)]
  have hpast : ∀ i : Fin 32, 2 * ps.length < i.val →
      (BitVec.ofNat 32 ps.length :: ps.flatMap fun p =>
        [BitVec.ofNat 32 p, BitVec.ofNat 32 (s.args[0].toNat.factorization p)]).getD i.val 0 = 0 := by
    intro i hi
    refine List.getD_eq_default _ _ ?_
    rw [List.length_cons, length_flatMap_pair]
    omega
  refine ⟨hnine, fun j hj => ?_, hpast, fun i hi => hpast i (by omega)⟩
  have hmem : ps[j.val] ∈ primeDivisors s.args[0].toNat := hps ▸ List.getElem_mem hj
  obtain ⟨hprime, hdvd⟩ := (mem_primeDivisors hn _).mp hmem
  have hlow := hprime.factorization_pos_of_dvd hn hdvd
  have hhigh := factorization_lt_of_lt_two_pow hn s.args[0].isLt hprime
  rw [List.getD_cons_succ, getD_flatMap_pair_snd _ _ _ _ _ hj, toNat_ofNat_of_lt (by omega)]
  omega

/-! ## PHI -/

/-- Each step of R132 divides exactly: the primes still to come divide the value so far (41_factorizer.md R132). -/
theorem foldl_phiStep (e : Nat → Nat) {ps : List Nat} (hpos : ∀ p ∈ ps, 0 < p) (a : Nat) :
    (ps.map fun p => (p, e p)).foldl (fun res pe => res * (pe.1 - 1) / pe.1) (a * ps.prod) =
      a * (ps.map (· - 1)).prod := by
  induction ps generalizing a with
  | nil => rfl
  | cons p ps ih =>
    obtain ⟨hp, hps⟩ := List.forall_mem_cons.mp hpos
    have hstep : a * (p * ps.prod) * (p - 1) / p = a * (p - 1) * ps.prod := by
      rw [show a * (p * ps.prod) * (p - 1) = p * (a * (p - 1) * ps.prod) by ring, Nat.mul_div_cancel_left _ hp]
    rw [List.map_cons, List.foldl_cons, List.prod_cons, hstep, ih hps, List.map_cons, List.prod_cons, Nat.mul_assoc]

/-- Phi from the factorization is Euler's totient (41_factorizer.md R132). -/
theorem phiOf_factorPairs {n : Nat} (hn : n ≠ 0) : phiOf n (factorPairs n) = Nat.totient n := by
  have hpos : ∀ p ∈ primeDivisors n, 0 < p := fun p hp => ((mem_primeDivisors hn p).mp hp).1.pos
  have hprod := prod_primeFactors_eq hn id
  rw [List.map_id] at hprod
  have hfold := foldl_phiStep n.factorization hpos (n / (primeDivisors n).prod)
  rw [Nat.div_mul_cancel (hprod ▸ Nat.prod_primeFactors_dvd n)] at hfold
  rw [phiOf, factorPairs, hfold, Nat.totient_eq_div_primeFactors_mul, prod_primeFactors_eq hn (· - 1), ← hprod]
  rfl

/-- Settles O41: Phi of the factorization is the totient. -/
theorem phiGivesTheTotient : Obligations.PhiGivesTheTotient := by
  intro s hinv hne hmax
  rw [exec, execPhi, factorizerCommand_of_valid _ hinv hne hmax, phiOf_factorPairs (BitVec.toNat_ne.mp hne)]

/-! ## SIGMA and ALIQUOT -/

/-- Both branches of R133 multiply by the sum of the powers of the prime (41_factorizer.md R133). -/
theorem sigmaStep_eq (res : Nat) {p : Nat} (hp : p.Prime) (e : Nat) :
    (if e = 1 then res * ((p * p - 1) / (p - 1)) else res * ((p ^ (e + 1) - 1) / (p - 1))) =
      res * ∑ k ∈ Finset.range (e + 1), p ^ k := by
  rw [Nat.geomSum_eq hp.two_le]
  split
  · next hone => rw [hone, sq]
  · rfl

theorem foldl_sigmaStep (e : Nat → Nat) {ps : List Nat} (hprime : ∀ p ∈ ps, p.Prime) (a : Nat) :
    (ps.map fun p => (p, e p)).foldl (fun res pe =>
      if pe.2 = 1 then res * ((pe.1 * pe.1 - 1) / (pe.1 - 1))
      else res * ((pe.1 ^ (pe.2 + 1) - 1) / (pe.1 - 1))) a =
      a * (ps.map fun p => ∑ k ∈ Finset.range (e p + 1), p ^ k).prod := by
  induction ps generalizing a with
  | nil => exact (Nat.mul_one a).symm
  | cons p ps ih =>
    obtain ⟨hp, hps⟩ := List.forall_mem_cons.mp hprime
    simp only [List.map_cons, List.foldl_cons, List.prod_cons, sigmaStep_eq a hp, ih hps, Nat.mul_assoc]

/-- Sigma from the factorization is the sum of the divisors (41_factorizer.md R133). -/
theorem sigmaOf_factorPairs {n : Nat} (hn : n ≠ 0) : sigmaOf (factorPairs n) = ∑ d ∈ n.divisors, d := by
  have hprime : ∀ p ∈ primeDivisors n, p.Prime := fun p hp => ((mem_primeDivisors hn p).mp hp).1
  rw [Nat.sum_divisors hn, prod_primeFactors_eq hn, sigmaOf, factorPairs, foldl_sigmaStep _ hprime, Nat.one_mul]

/-- The divisor sum is at most `n` times the sum of the reciprocals up to `n`, and that is below 32 for a 32-bit `n`
(41_factorizer.md R133). -/
theorem sum_divisors_lt {n : Nat} (hn : n ≠ 0) (h32 : n < 2 ^ 32) : ∑ d ∈ n.divisors, d < 2 ^ 37 := by
  have hnpos : (0 : ℝ) < n := Nat.cast_pos.mpr (Nat.pos_of_ne_zero hn)
  have hlog : Real.log n ≤ 31 := by
    have hle : (n : ℝ) ≤ 2 ^ 32 := by exact_mod_cast h32.le
    calc Real.log n ≤ Real.log (2 ^ 32) := Real.log_le_log hnpos hle
      _ = 32 * Real.log 2 := by rw [Real.log_pow]; norm_num
      _ ≤ 31 := by linarith [Real.log_two_lt_d9]
  have hreciprocals : ∑ d ∈ n.divisors, ((d : ℝ))⁻¹ ≤ harmonic n := by
    rw [harmonic_eq_sum_Icc]
    push_cast
    refine Finset.sum_le_sum_of_subset_of_nonneg (fun d hd => ?_) fun _ _ _ => by positivity
    exact Finset.mem_Icc.mpr ⟨Nat.pos_of_mem_divisors hd, Nat.divisor_le hd⟩
  have hsum : ((∑ d ∈ n.divisors, d : ℕ) : ℝ) = n * ∑ d ∈ n.divisors, ((d : ℝ))⁻¹ := by
    rw [← Nat.sum_div_divisors n fun d => d, Nat.cast_sum, Finset.mul_sum]
    refine Finset.sum_congr rfl fun d hd => ?_
    rw [Nat.cast_div_charZero (Nat.dvd_of_mem_divisors hd), div_eq_mul_inv]
  have hbound : ((∑ d ∈ n.divisors, d : ℕ) : ℝ) ≤ n * 32 := by
    rw [hsum]
    exact mul_le_mul_of_nonneg_left (by linarith [harmonic_le_one_add_log n]) hnpos.le
  have hnat : ∑ d ∈ n.divisors, d ≤ n * 32 := by exact_mod_cast hbound
  omega

/-- The low word of a two-word result may be written with the remainder (20_memory.md R70). -/
theorem twoWords_eq (v : Nat) : twoWords v = [BitVec.ofNat 32 (v % 2 ^ 32), BitVec.ofNat 32 (v / 2 ^ 32)] := by
  have hlow : BitVec.ofNat 32 v = BitVec.ofNat 32 (v % 2 ^ 32) := BitVec.eq_of_toNat_eq (by simp)
  rw [twoWords, ← hlow]

/-- Settles O42: Sigma of the factorization is the divisor sum. -/
theorem sigmaGivesTheDivisorSum : Obligations.SigmaGivesTheDivisorSum := by
  intro s hinv hne hmax
  have hn : s.args[0].toNat ≠ 0 := BitVec.toNat_ne.mp hne
  refine ⟨_, rfl, sum_divisors_lt hn s.args[0].isLt, ?_⟩
  rw [exec, execSigma, factorizerCommand_of_valid _ hinv hne hmax, sigmaOf_factorPairs hn, twoWords_eq]

/-- Settles O43: the divisor sum without the operand itself. -/
theorem aliquotGivesTheProperDivisorSum : Obligations.AliquotGivesTheProperDivisorSum := by
  intro s hinv hne hmax
  have hn : s.args[0].toNat ≠ 0 := BitVec.toNat_ne.mp hne
  have hsplit := Nat.sum_divisors_eq_sum_properDivisors_add_self (n := s.args[0].toNat)
  have hbound := sum_divisors_lt hn s.args[0].isLt
  refine ⟨_, rfl, by omega, ?_⟩
  rw [exec, execAliquot, factorizerCommand_of_valid _ hinv hne hmax, aliquotOf, sigmaOf_factorPairs hn, hsplit,
    Nat.add_sub_cancel, twoWords_eq]

end Sys2Proof.Machine

/-! SUPPORT. The digest (42_prng.md R151 to R156) and the commands SEED and NEXT_FLOAT (R160, R163), with the statements
DigestPaddingIsLeast, DigestScheduleRecurrence, DigestRoundRecurrence, ReferenceDigests,
SeedLoadsTheDigestOfTheSeedBytes, EqualSeedsGiveEqualGenerators, NextFloatCombinesTwoDraws and
ZeroStateIsAFixedPoint. -/

namespace Sys2Proof.Machine

/-! ## The padding -/

theorem length_bytesBE (n v : Nat) : (bytesBE n v).length = n := by
  rw [bytesBE, List.length_map, List.length_range]

/-- The length field of the padding, its bytes as quotients by powers of 256 (42_prng.md R151). -/
theorem bytesBE_eight (v : Nat) :
    bytesBE 8 v = (List.range 8).map fun i => BitVec.ofNat 8 (v / 256 ^ (7 - i)) := by
  simp only [bytesBE, Nat.pow_mul]

/-- `padZeros` is the least number of zero bytes after which the length field ends a block (42_prng.md R151). -/
theorem padZeros_least (len : Nat) : (len + 1 + padZeros len) % 64 = 56 ∧
    ∀ y, (len + 1 + y) % 64 = 56 → padZeros len ≤ y := by
  unfold padZeros
  exact ⟨by omega, fun y hy => by omega⟩

theorem length_padMessage (m : List Byte) : (padMessage m).length = 64 * ((m.length + 8) / 64 + 1) := by
  simp only [padMessage, padZeros, List.length_append, List.length_cons, List.length_nil, List.length_replicate,
    length_bytesBE]
  omega

/-- Settles O44: the zero bytes are `padZeros`, and the blocks follow from the length. -/
theorem digestPaddingIsLeast : Obligations.DigestPaddingIsLeast := by
  intro m hm
  obtain ⟨hfills, hleast⟩ := padZeros_least m.length
  refine ⟨padZeros m.length, ?_, hfills, hleast, length_padMessage m, by omega⟩
  rw [padMessage, bytesBE_eight]
  rfl

/-! ## The message schedule -/

/-- The schedule word after the words `ws`, the newest first (42_prng.md R153). -/
def nextScheduleWord (ws : List Word) : Word :=
  rotl32 (ws.getD 2 0 ^^^ ws.getD 7 0 ^^^ ws.getD 13 0 ^^^ ws.getD 15 0) 1

theorem extendSchedule_succ (n : Nat) (ws : List Word) :
    extendSchedule (n + 1) ws = extendSchedule n (nextScheduleWord ws :: ws) := rfl

theorem getD_of_prefix {α : Type} {l l' : List α} (d : α) (h : l <+: l') {i : Nat} (hi : i < l.length) :
    l'.getD i d = l.getD i d := by
  obtain ⟨rest, rfl⟩ := h
  exact List.getD_append _ _ _ _ hi

/-- Extending the schedule appends in time order, keeps the words so far, and each new word follows the recurrence
(42_prng.md R153). -/
theorem extendSchedule_spec (n : Nat) (ws : List Word) (h16 : 16 ≤ ws.length) :
    (extendSchedule n ws).length = ws.length + n ∧ ws.reverse <+: (extendSchedule n ws).reverse ∧
    ∀ t, ws.length ≤ t → t < ws.length + n →
      (extendSchedule n ws).reverse.getD t 0 =
        rotl32 ((extendSchedule n ws).reverse.getD (t - 3) 0 ^^^ (extendSchedule n ws).reverse.getD (t - 8) 0 ^^^
          (extendSchedule n ws).reverse.getD (t - 14) 0 ^^^ (extendSchedule n ws).reverse.getD (t - 16) 0) 1 := by
  induction n generalizing ws with
  | zero => exact ⟨rfl, List.prefix_refl _, fun t _ _ => by omega⟩
  | succ n ih =>
    rw [extendSchedule_succ]
    obtain ⟨hlength, hprefix, hrec⟩ := ih (nextScheduleWord ws :: ws) (by rw [List.length_cons]; omega)
    rw [List.length_cons] at hlength hrec
    have hkept : ws.reverse <+: (extendSchedule n (nextScheduleWord ws :: ws)).reverse := by
      refine List.IsPrefix.trans ?_ hprefix
      rw [List.reverse_cons]
      exact List.prefix_append _ _
    refine ⟨by omega, hkept, fun t hlow hhigh => ?_⟩
    obtain rfl | hlater := Nat.eq_or_lt_of_le hlow
    · have hnew : (extendSchedule n (nextScheduleWord ws :: ws)).reverse.getD ws.length 0 = nextScheduleWord ws := by
        rw [getD_of_prefix 0 hprefix (by simp), List.getD_reverse _ (by simp), List.length_cons, Nat.add_sub_cancel,
          Nat.sub_self, List.getD_cons_zero]
      have hold : ∀ i, 1 ≤ i → i ≤ 16 →
          (extendSchedule n (nextScheduleWord ws :: ws)).reverse.getD (ws.length - i) 0 = ws.getD (i - 1) 0 := by
        intro i h1 hi
        rw [getD_of_prefix 0 hkept (by rw [List.length_reverse]; omega), List.getD_reverse _ (by omega),
          show ws.length - 1 - (ws.length - i) = i - 1 by omega]
      rw [hnew, hold 3 (by omega) (by omega), hold 8 (by omega) (by omega), hold 14 (by omega) (by omega),
        hold 16 (by omega) (by omega)]
      rfl
    · exact hrec t hlater (by omega)

/-- Settles O45: the schedule extends the block by 64 words. -/
theorem digestScheduleRecurrence : Obligations.DigestScheduleRecurrence := by
  intro block hblock
  have hreverse : block.reverse.length = 16 := by rw [List.length_reverse, hblock]
  obtain ⟨hlength, hprefix, hrec⟩ := extendSchedule_spec 64 block.reverse hreverse.ge
  rw [List.reverse_reverse] at hprefix
  rw [hreverse] at hlength hrec
  refine ⟨?_, fun t ht => getD_of_prefix 0 hprefix (by omega), fun t hlow hhigh => hrec t hlow hhigh⟩
  rw [messageSchedule, List.length_reverse, hlength]

/-! ## The rounds -/

/-- The table of f_t with the two parity ranges together (42_prng.md R154). -/
theorem roundFunction_eq (t : Nat) (b c d : Word) : roundFunction t b c d =
    if t < 20 then (b &&& c) ||| (~~~b &&& d)
    else if 40 ≤ t ∧ t < 60 then (b &&& c) ||| (b &&& d) ||| (c &&& d)
    else b ^^^ c ^^^ d := by
  unfold roundFunction
  by_cases h20 : t < 20
  · rw [if_pos h20, if_pos h20]
  · rw [if_neg h20, if_neg h20]
    by_cases h40 : t < 40
    · rw [if_pos h40, if_neg (by omega)]
    · rw [if_neg h40]
      by_cases h60 : t < 60
      · rw [if_pos h60, if_pos ⟨by omega, h60⟩]
      · rw [if_neg h60, if_neg (by omega)]

theorem toNat_roundConstant (t : Nat) : (roundConstant t).toNat =
    if t < 20 then 0x5A827999 else if t < 40 then 0x6ED9EBA1 else if t < 60 then 0x8F1BBCDC else 0xCA62C1D6 := by
  unfold roundConstant
  split_ifs <;> rfl

/-- Settles O46: the 32-bit sum of R155 is the exact sum reduced once. -/
theorem digestRoundRecurrence : Obligations.DigestRoundRecurrence := by
  intro t w v _
  refine ⟨_, _, rfl, rfl, ?_, rfl, rfl, rfl, rfl⟩
  rw [← roundFunction_eq, ← toNat_roundConstant]
  simp only [digestRound, BitVec.toNat_add]
  omega

/-- Settles O47: each digest is one block, evaluated. -/
theorem referenceDigests : Obligations.ReferenceDigests := ⟨by decide +kernel, by decide +kernel⟩

/-! ## SEED -/

theorem length_seedBytes (s : State) : s.seedBytes.length = s.seedLen.toNat := by
  rw [State.seedBytes, List.length_map, List.length_range]

theorem seedBytes_getD (s : State) {j : Nat} (h : j < s.seedLen.toNat) :
    s.seedBytes.getD j 0 = seedByte s.seedBuf j := by
  rw [List.getD_eq_getElem _ _ (by rwa [length_seedBytes])]
  simp only [State.seedBytes, List.getElem_map, List.getElem_range]

/-- The seed bytes are packed little-endian in the buffer's words (20_memory.md R69). -/
theorem toNat_seedByte (buf : Vector Word 64) {j : Nat} (h : j / 4 < 64) :
    (seedByte buf j).toNat = buf[j / 4].toNat / 2 ^ (8 * (j % 4)) % 2 ^ 8 := by
  rw [seedByte, Vector.getElem?_eq_getElem h, Option.getD_some, BitVec.extractLsb'_toNat, Nat.shiftRight_eq_div_pow]

/-- SEED with a length that fits loads the digest of the seed bytes (42_prng.md R160). -/
theorem exec_seed_of_valid {s : State} (h : s.seedLen.toNat ≤ 256) :
    exec .seed s = .next (afterCommit s
      [(digest160 s.seedBytes).h0, (digest160 s.seedBytes).h1, (digest160 s.seedBytes).h2,
        (digest160 s.seedBytes).h3, (digest160 s.seedBytes).h4]
      s.cache (Rng.ofDigest (digest160 s.seedBytes)) true) := by
  have hcap : ¬ Config.seedCap < s.seedLen.toNat := Nat.not_lt.mpr h
  rw [exec, execSeed, if_neg hcap, seedFrom, commit_withRng]

/-- Settles O48: the bytes are the seed bytes of the state. -/
theorem seedLoadsTheDigestOfTheSeedBytes : Obligations.SeedLoadsTheDigestOfTheSeedBytes := by
  intro s hlen
  refine ⟨s.seedBytes, _, length_seedBytes s, fun j hj hlt => ?_, rfl, exec_seed_of_valid hlen⟩
  rw [seedBytes_getD s hlt, toNat_seedByte _ hj]

/-- Settles O57: equal lengths and bytes give the same digest. -/
theorem equalSeedsGiveEqualGenerators : Obligations.EqualSeedsGiveEqualGenerators := by
  intro s t s' t' hlen hbuf hfits hs ht
  have hbytes : s.seedBytes = t.seedBytes := by
    rw [State.seedBytes, State.seedBytes, ← hlen]
    exact List.map_congr_left fun j hj => hbuf j (List.mem_range.mp hj)
  rw [exec_seed_of_valid hfits, Host.Outcome.next.injEq] at hs
  rw [exec_seed_of_valid (hlen ▸ hfits), Host.Outcome.next.injEq, ← hbytes] at ht
  subst hs ht
  exact ⟨rfl, rfl, rfl, rfl⟩

/-! ## NEXT_FLOAT and the all-zero generator -/

/-- Settles O53: two draws, the first small and the second large. -/
theorem nextFloatCombinesTwoDraws : Obligations.NextFloatCombinesTwoDraws := by
  intro s hseeded
  refine ⟨_, _, _, rfl, rfl, rfl, ?_⟩
  rw [exec, execNextFloat, checkSeeded_of_seeded _ hseeded, commit_withRng, hseeded, twoWords_eq]
  rfl

/-- Settles O51: one evaluation of the step. -/
theorem zeroStateIsAFixedPoint : Obligations.ZeroStateIsAFixedPoint := ⟨by decide, by decide⟩

end Sys2Proof.Machine

/-! SUPPORT. The float of two draws (42_prng.md R159) against the values of binary64 (00_scope.md R11), with the
statements ToFloatRoundsToNearestEven and ToFloatCorners. Everything is counted in units of 2^-1074, the least positive
value, so that values are naturals. -/

namespace Sys2Proof.Machine

/-! ## Values in units of 2^-1074 -/

/-- The value of the finite binary64 encoding `b` with sign 0, in units of 2^-1074 (00_scope.md R11). -/
def scaledValue (b : Nat) : Nat :=
  if b / 2 ^ 52 = 0 then b % 2 ^ 52 else (2 ^ 52 + b % 2 ^ 52) * 2 ^ (b / 2 ^ 52 - 1)

/-- `scaledValue` is the value of the statements in its unit. -/
theorem binary64Value_eq (f : DWord) : binary64Value f = scaledValue f.toNat * (2 : ℚ) ^ (-1074 : ℤ) := by
  unfold binary64Value scaledValue
  split
  · rfl
  · next hnormal =>
    have hexp : ((f.toNat / 2 ^ 52 : ℕ) - 1075 : ℤ) = ((f.toNat / 2 ^ 52 - 1 : ℕ) : ℤ) + (-1074) := by omega
    rw [hexp, zpow_add₀ two_ne_zero, zpow_natCast, Nat.cast_mul, Nat.cast_pow, mul_assoc]
    rfl

theorem scaledValue_subnormal {b : Nat} (h : b < 2 ^ 52) : scaledValue b = b := by
  rw [scaledValue, if_pos (Nat.div_eq_of_lt h), Nat.mod_eq_of_lt h]

/-- The value of an encoding written as exponent and 53-bit significand; a significand of 2^53 is the carry into the
exponent (00_scope.md R11). -/
theorem scaledValue_normal (j : Nat) {m : Nat} (hlow : 2 ^ 52 ≤ m) (hhigh : m ≤ 2 ^ 53) :
    scaledValue (j * 2 ^ 52 + m) = m * 2 ^ j := by
  unfold scaledValue
  obtain hcarry | hnocarry := Nat.eq_or_lt_of_le hhigh
  · have hdiv : (j * 2 ^ 52 + m) / 2 ^ 52 = j + 2 := by omega
    have hmod : (j * 2 ^ 52 + m) % 2 ^ 52 = 0 := by omega
    rw [hdiv, hmod, if_neg (by omega), hcarry, show j + 2 - 1 = j + 1 by omega, Nat.pow_succ]
    ring
  · have hdiv : (j * 2 ^ 52 + m) / 2 ^ 52 = j + 1 := by omega
    have hmod : 2 ^ 52 + (j * 2 ^ 52 + m) % 2 ^ 52 = m := by omega
    rw [hdiv, hmod, if_neg (by omega), Nat.add_sub_cancel]

/-- Every encoding is subnormal or has an exponent and a 53-bit significand. -/
theorem subnormal_or_normal (b : Nat) :
    b < 2 ^ 52 ∨ ∃ j m, b = j * 2 ^ 52 + m ∧ 2 ^ 52 ≤ m ∧ m < 2 ^ 53 := by
  obtain hsub | hnormal := Nat.lt_or_ge b (2 ^ 52)
  · exact .inl hsub
  · exact .inr ⟨b / 2 ^ 52 - 1, 2 ^ 52 + b % 2 ^ 52, by omega, by omega, by omega⟩

/-- The order of the encodings is the order of their values. -/
theorem scaledValue_strictMono : StrictMono scaledValue := by
  refine strictMono_nat_of_lt_succ fun b => ?_
  obtain hsub | ⟨j, m, rfl, hlow, hhigh⟩ := subnormal_or_normal b
  · rw [scaledValue_subnormal hsub]
    obtain hlast | hnext := Nat.eq_or_lt_of_le (Nat.succ_le_of_lt hsub)
    · have hvalue := scaledValue_normal 0 (m := b + 1) hlast.ge (by omega)
      rw [Nat.zero_mul, Nat.zero_add, Nat.pow_zero, Nat.mul_one] at hvalue
      omega
    · rw [scaledValue_subnormal hnext]
      omega
  · rw [scaledValue_normal j hlow hhigh.le, Nat.add_assoc, scaledValue_normal j (by omega) (by omega)]
    exact Nat.mul_lt_mul_of_pos_right (Nat.lt_succ_self m) (Nat.two_pow_pos j)

/-- A value is a multiple of a given power of two, or below the normal values that have it as their unit. -/
theorem dvd_or_lt_scaledValue (j b : Nat) : 2 ^ j ∣ scaledValue b ∨ scaledValue b < 2 ^ 52 * 2 ^ j := by
  have hpos := Nat.two_pow_pos j
  obtain hsub | ⟨i, m, rfl, hlow, hhigh⟩ := subnormal_or_normal b
  · rw [scaledValue_subnormal hsub]
    exact .inr (by nlinarith)
  · rw [scaledValue_normal i hlow hhigh.le]
    obtain hle | hlt := le_or_gt j i
    · exact .inl ((Nat.pow_dvd_pow 2 hle).mul_left m)
    · right
      calc m * 2 ^ i < 2 ^ 53 * 2 ^ i := Nat.mul_lt_mul_of_pos_right hhigh (Nat.two_pow_pos i)
        _ = 2 ^ 52 * 2 ^ (i + 1) := by ring
        _ ≤ 2 ^ 52 * 2 ^ j := Nat.mul_le_mul_left _ (Nat.pow_le_pow_right (by decide) hlt)

/-! ## Rounding to nearest, ties to even -/

/-- `roundShiftEven` is the multiple of `2 ^ k` nearest to `n`, and an even one when another is as near (00_scope.md
R11). -/
theorem roundShiftEven_nearest (n k a : Nat) :
    Nat.dist (roundShiftEven n k * 2 ^ k) n ≤ Nat.dist (a * 2 ^ k) n ∧
    (Nat.dist (a * 2 ^ k) n = Nat.dist (roundShiftEven n k * 2 ^ k) n → a ≠ roundShiftEven n k →
      roundShiftEven n k % 2 = 0) := by
  have hdiv := Nat.div_add_mod n (2 ^ k)
  have hrem := Nat.mod_lt n (Nat.two_pow_pos k)
  simp only [roundShiftEven]
  generalize 2 ^ k = d at *
  generalize n / d = q at *
  generalize n % d = r at *
  subst hdiv
  have hq : (q + 1) * d = d * q + d := by ring
  have hq' : q * d = d * q := Nat.mul_comm q d
  obtain hle | hgt := le_or_gt a q
  · obtain ⟨i, rfl⟩ := Nat.exists_eq_add_of_le hle
    have ha : d * (a + i) = a * d + d * i := by ring
    have hi : i ≠ 0 → d ≤ d * i := fun h => Nat.le_mul_of_pos_right d (Nat.pos_of_ne_zero h)
    split <;> simp only [Nat.dist] <;> omega
  · obtain ⟨i, rfl⟩ := Nat.exists_eq_add_of_lt hgt
    have ha : (q + i + 1) * d = d * q + d * i + d := by ring
    have hi : i ≠ 0 → d ≤ d * i := fun h => Nat.le_mul_of_pos_right d (Nat.pos_of_ne_zero h)
    split <;> simp only [Nat.dist] <;> omega

theorem roundShiftEven_bounds (n k : Nat) : n / 2 ^ k ≤ roundShiftEven n k ∧ roundShiftEven n k ≤ n / 2 ^ k + 1 := by
  simp only [roundShiftEven]
  split <;> omega

/-! ## The significand and the encoding -/

theorem significand53_of_lt {n : Nat} (h : n < 2 ^ 53) (hn : n ≠ 0) :
    Nat.log2 n ≤ 52 ∧ significand53 n = n * 2 ^ (52 - Nat.log2 n) := by
  have hlog : Nat.log2 n ≤ 52 := Nat.lt_succ_iff.mp ((Nat.log2_lt hn).mpr h)
  exact ⟨hlog, if_pos hlog⟩

theorem significand53_of_ge {n : Nat} (h : 2 ^ 53 ≤ n) :
    53 ≤ Nat.log2 n ∧ significand53 n = roundShiftEven n (Nat.log2 n - 52) := by
  have hlog : 53 ≤ Nat.log2 n := (Nat.le_log2 (by omega)).mpr h
  exact ⟨hlog, if_neg (by omega)⟩

/-- The significand has its leading bit at bit 52, but for a carry. -/
theorem significand53_bounds {n : Nat} (hn : n ≠ 0) : 2 ^ 52 ≤ significand53 n ∧ significand53 n ≤ 2 ^ 53 := by
  have hlow := Nat.log2_self_le hn
  have hhigh : n < 2 ^ (Nat.log2 n + 1) := Nat.lt_log2_self
  obtain hlt | hge := Nat.lt_or_ge n (2 ^ 53)
  · obtain ⟨hlog, heq⟩ := significand53_of_lt hlt hn
    rw [heq]
    constructor
    · calc 2 ^ 52 = 2 ^ Nat.log2 n * 2 ^ (52 - Nat.log2 n) := by rw [← Nat.pow_add, Nat.add_sub_cancel' hlog]
        _ ≤ n * 2 ^ (52 - Nat.log2 n) := Nat.mul_le_mul_right _ hlow
    · calc n * 2 ^ (52 - Nat.log2 n) ≤ 2 ^ (Nat.log2 n + 1) * 2 ^ (52 - Nat.log2 n) :=
            Nat.mul_le_mul_right _ hhigh.le
        _ = 2 ^ 53 := by rw [← Nat.pow_add]; congr 1; omega
  · obtain ⟨hlog, heq⟩ := significand53_of_ge hge
    obtain ⟨hfloor, hceil⟩ := roundShiftEven_bounds n (Nat.log2 n - 52)
    rw [heq]
    have hquotLow : 2 ^ 52 ≤ n / 2 ^ (Nat.log2 n - 52) := by
      rw [Nat.le_div_iff_mul_le (Nat.two_pow_pos _), ← Nat.pow_add, Nat.add_sub_cancel' (by omega)]
      exact hlow
    have hquotHigh : n / 2 ^ (Nat.log2 n - 52) < 2 ^ 53 := by
      rw [Nat.div_lt_iff_lt_mul (Nat.two_pow_pos _), ← Nat.pow_add,
        show 53 + (Nat.log2 n - 52) = Nat.log2 n + 1 by omega]
      exact hhigh
    omega

/-- The encoding as exponent and significand; it does not overflow the 64 bits (42_prng.md R159). -/
theorem toNat_bitsOfFraction64 {n : Nat} (hn : n ≠ 0) (h64 : n < 2 ^ 64) :
    (bitsOfFraction64 n).toNat = (Nat.log2 n + 958) * 2 ^ 52 + significand53 n := by
  obtain ⟨hlow, hhigh⟩ := significand53_bounds hn
  have hlog : Nat.log2 n < 64 := (Nat.log2_lt hn).mpr h64
  rw [bitsOfFraction64, if_neg hn, BitVec.toNat_ofNat]
  omega

theorem scaledValue_bitsOfFraction64 {n : Nat} (hn : n ≠ 0) (h64 : n < 2 ^ 64) :
    scaledValue (bitsOfFraction64 n).toNat = significand53 n * 2 ^ (Nat.log2 n + 958) := by
  obtain ⟨hlow, hhigh⟩ := significand53_bounds hn
  rw [toNat_bitsOfFraction64 hn h64, scaledValue_normal _ hlow hhigh]

/-- The unit 2^-64 of a 64-bit fraction is this power of two in units of 2^-1074. -/
def fractionExponent : Nat := 1010

theorem fractionExponent_eq : fractionExponent = 1010 := rfl

/-- A fraction of at most 53 bits is encoded exactly (42_prng.md R159). -/
theorem scaledValue_exact {n : Nat} (h : n < 2 ^ 53) :
    scaledValue (bitsOfFraction64 n).toNat = n * 2 ^ fractionExponent := by
  by_cases hn : n = 0
  · subst hn
    rw [Nat.zero_mul]
    exact scaledValue_subnormal (b := 0) (Nat.two_pow_pos 52)
  · obtain ⟨hlog, heq⟩ := significand53_of_lt h hn
    rw [scaledValue_bitsOfFraction64 hn (by omega), heq, Nat.mul_assoc, ← Nat.pow_add,
      show 52 - Nat.log2 n + (Nat.log2 n + 958) = fractionExponent by rw [fractionExponent_eq]; omega]

/-- A longer fraction is encoded as a rounded multiple of the unit that its leading bit gives (42_prng.md R159). -/
theorem scaledValue_rounded {n : Nat} (h : 2 ^ 53 ≤ n) (h64 : n < 2 ^ 64) :
    scaledValue (bitsOfFraction64 n).toNat =
      roundShiftEven n (Nat.log2 n - 52) * 2 ^ (Nat.log2 n - 52) * 2 ^ fractionExponent := by
  obtain ⟨hlog, heq⟩ := significand53_of_ge h
  rw [scaledValue_bitsOfFraction64 (by omega) h64, heq, Nat.mul_assoc, ← Nat.pow_add,
    show Nat.log2 n - 52 + fractionExponent = Nat.log2 n + 958 by rw [fractionExponent_eq]; omega]

/-! ## Nearest among all encodings -/

/-- How far the value of encoding `b` is from the fraction `n / 2 ^ 64`, in units of 2^-1074. -/
def fractionDist (n b : Nat) : Nat := Nat.dist (scaledValue b) (n * 2 ^ fractionExponent)

/-- No encoding is nearer to the fraction than its float, and the float is even when another is as near (00_scope.md
R11). -/
theorem bitsOfFraction64_nearest {n : Nat} (h64 : n < 2 ^ 64) (b : Nat) :
    fractionDist n (bitsOfFraction64 n).toNat ≤ fractionDist n b ∧
    (fractionDist n b = fractionDist n (bitsOfFraction64 n).toNat → b ≠ (bitsOfFraction64 n).toNat →
      (bitsOfFraction64 n).toNat % 2 = 0) := by
  unfold fractionDist
  obtain hlt | hge := Nat.lt_or_ge n (2 ^ 53)
  · have hexact := scaledValue_exact hlt
    rw [← hexact, Nat.dist_self]
    refine ⟨Nat.zero_le _, fun htie hne => ?_⟩
    exact absurd (scaledValue_strictMono.injective (Nat.eq_of_dist_eq_zero htie)) hne
  · have hn : n ≠ 0 := by omega
    obtain ⟨hlog, hsig⟩ := significand53_of_ge hge
    have hfloat := scaledValue_rounded hge h64
    have hbits := toNat_bitsOfFraction64 hn h64
    rw [hsig] at hbits
    have hunit : 2 ^ (Nat.log2 n - 52 + fractionExponent) = 2 ^ (Nat.log2 n - 52) * 2 ^ fractionExponent :=
      Nat.pow_add _ _ _
    have hlead : 2 ^ 52 * 2 ^ (Nat.log2 n - 52) ≤ n := by
      rw [← Nat.pow_add, Nat.add_sub_cancel' (by omega)]
      exact Nat.log2_self_le hn
    rw [hfloat, Nat.dist_mul_right]
    obtain ⟨a, ha⟩ | hsmall := dvd_or_lt_scaledValue (Nat.log2 n - 52 + fractionExponent) b
    · have hb : scaledValue b = a * 2 ^ (Nat.log2 n - 52) * 2 ^ fractionExponent := by rw [ha, hunit]; ring
      obtain ⟨hnearest, heven⟩ := roundShiftEven_nearest n (Nat.log2 n - 52) a
      rw [hb, Nat.dist_mul_right]
      refine ⟨Nat.mul_le_mul_right _ hnearest, fun htie hne => ?_⟩
      have hround := heven (Nat.eq_of_mul_eq_mul_right (Nat.two_pow_pos fractionExponent) htie) fun heq =>
        hne (scaledValue_strictMono.injective (by rw [hfloat, hb, heq]))
      omega
    · have hnearest := (roundShiftEven_nearest n (Nat.log2 n - 52) (2 ^ 52)).1
      have hbelow : scaledValue b < 2 ^ 52 * 2 ^ (Nat.log2 n - 52) * 2 ^ fractionExponent := by
        rw [Nat.mul_assoc, ← hunit]
        exact hsmall
      have hlead' := Nat.mul_le_mul_right (2 ^ fractionExponent) hlead
      have hfarther : Nat.dist (2 ^ 52 * 2 ^ (Nat.log2 n - 52)) n * 2 ^ fractionExponent <
          Nat.dist (scaledValue b) (n * 2 ^ fractionExponent) := by
        rw [← Nat.dist_mul_right, Nat.dist_eq_sub_of_le hlead', Nat.dist_eq_sub_of_le (hbelow.le.trans hlead')]
        exact Nat.sub_lt_sub_left (hbelow.trans_le hlead') hbelow
      have hstrict := (Nat.mul_le_mul_right (2 ^ fractionExponent) hnearest).trans_lt hfarther
      exact ⟨hstrict.le, fun htie => absurd htie hstrict.ne'⟩

/-- The distance of a value from a 64-bit fraction, in units of 2^-1074. -/
theorem abs_binary64Value_sub (f : DWord) (n : Nat) :
    |binary64Value f - (n : ℚ) / 2 ^ 64| =
      (fractionDist n f.toNat : ℚ) * (2 : ℚ) ^ (-1074 : ℤ) := by
  have hdist : ∀ x y : Nat, |(x : ℚ) - y| = (Nat.dist x y : ℚ) := by
    intro x y
    obtain hle | hle := Nat.le_total x y
    · rw [Nat.dist_eq_sub_of_le hle, Nat.cast_sub hle, abs_sub_comm,
        abs_of_nonneg (sub_nonneg.mpr (Nat.cast_le.mpr hle))]
    · rw [Nat.dist_eq_sub_of_le_right hle, Nat.cast_sub hle, abs_of_nonneg (sub_nonneg.mpr (Nat.cast_le.mpr hle))]
  have hunit : (n : ℚ) / 2 ^ 64 = (n * 2 ^ fractionExponent : ℕ) * (2 : ℚ) ^ (-1074 : ℤ) := by
    have hpow : (2 : ℚ) ^ (-1074 : ℤ) = (2 ^ fractionExponent * 2 ^ 64)⁻¹ := by
      rw [← pow_add]
      exact zpow_neg_coe_of_pos 2 (by decide)
    rw [hpow, Nat.cast_mul, Nat.cast_pow, Nat.cast_ofNat]
    field_simp
  rw [binary64Value_eq, hunit, ← sub_mul, abs_mul, hdist, abs_of_pos (zpow_pos two_pos _), fractionDist]

/-- The 64-bit fraction of two draws (42_prng.md R159). -/
theorem fraction_lt (small large : Word) : large.toNat * 2 ^ 32 + small.toNat < 2 ^ 64 := by omega

theorem toFloat_eq (small large : Word) :
    toFloat small large = bitsOfFraction64 (large.toNat * 2 ^ 32 + small.toNat) := rfl

theorem isFiniteNonneg_bitsOfFraction64 {n : Nat} (h64 : n < 2 ^ 64) : isFiniteNonneg (bitsOfFraction64 n) := by
  unfold isFiniteNonneg
  by_cases hn : n = 0
  · subst hn
    decide
  · have hlog : Nat.log2 n < 64 := (Nat.log2_lt hn).mpr h64
    have hsig := significand53_bounds hn
    rw [toNat_bitsOfFraction64 hn h64]
    omega

/-- Settles O54: the distances of the statement are those of `bitsOfFraction64_nearest` in another unit. -/
theorem toFloatRoundsToNearestEven : Obligations.ToFloatRoundsToNearestEven := by
  intro small large
  have h64 := fraction_lt small large
  refine ⟨_, rfl, isFiniteNonneg_bitsOfFraction64 h64, fun g _ => ?_⟩
  have hunit : (0 : ℚ) < 2 ^ (-1074 : ℤ) := zpow_pos two_pos _
  obtain ⟨hnearest, heven⟩ := bitsOfFraction64_nearest h64 g.toNat
  rw [toFloat_eq, abs_binary64Value_sub, abs_binary64Value_sub]
  refine ⟨mul_le_mul_of_nonneg_right (Nat.cast_le.mpr hnearest) hunit.le, fun htie hne => ?_⟩
  have hbit := heven (Nat.cast_injective (mul_right_cancel₀ hunit.ne' htie)) (BitVec.toNat_ne.mp hne)
  rw [BitVec.getLsbD, Nat.testBit_zero, hbit]
  rfl

/-! ## The corners -/

/-- The float is 1.0 exactly when the fraction rounds up to 2^64 (42_prng.md R163). -/
theorem toNat_bitsOfFraction64_eq_one_iff {n : Nat} (h64 : n < 2 ^ 64) :
    (bitsOfFraction64 n).toNat = 1023 * 2 ^ 52 ↔ 2 ^ 64 - 2 ^ 10 ≤ n := by
  by_cases hn : n = 0
  · subst hn
    decide
  · have hlog : Nat.log2 n < 64 := (Nat.log2_lt hn).mpr h64
    have hsig := significand53_bounds hn
    rw [toNat_bitsOfFraction64 hn h64]
    by_cases htop : 2 ^ 63 ≤ n
    · have hlog63 : Nat.log2 n = 63 := by
        have := (Nat.le_log2 hn).mpr htop
        omega
      rw [(significand53_of_ge (by omega)).2, hlog63]
      simp only [roundShiftEven]
      split <;> omega
    · have hlog62 : Nat.log2 n < 63 := (Nat.log2_lt hn).mpr (by omega)
      omega

theorem bitsOfFraction64_eq_zero_iff {n : Nat} (h64 : n < 2 ^ 64) : bitsOfFraction64 n = 0 ↔ n = 0 := by
  refine ⟨fun hzero => ?_, fun hn => if_pos hn⟩
  by_contra hn
  have hbits := toNat_bitsOfFraction64 hn h64
  rw [hzero] at hbits
  have hsig := significand53_bounds hn
  have hnat : (0 : DWord).toNat = 0 := rfl
  omega

/-- Settles O55: each corner is a condition on the 64-bit fraction. -/
theorem toFloatCorners : Obligations.ToFloatCorners := by
  intro small large
  have h64 := fraction_lt small large
  refine ⟨?zero, ?one, fun hshort => ?exact⟩
  case zero =>
    rw [toFloat_eq, bitsOfFraction64_eq_zero_iff h64, BitVec.toNat_eq, BitVec.toNat_eq]
    have hnat : (0 : Word).toNat = 0 := rfl
    omega
  case one =>
    rw [toFloat_eq, BitVec.toNat_eq, show (0x3FF0000000000000 : DWord).toNat = 1023 * 2 ^ 52 from rfl,
      toNat_bitsOfFraction64_eq_one_iff h64, BitVec.toNat_eq, BitVec.le_def]
    have hlarge : (0xFFFFFFFF : Word).toNat = 2 ^ 32 - 1 := rfl
    have hsmall : (0xFFFFFC00 : Word).toNat = 2 ^ 32 - 2 ^ 10 := rfl
    omega
  case exact =>
    have hdist := abs_binary64Value_sub (toFloat small large) (large.toNat * 2 ^ 32 + small.toNat)
    rw [toFloat_eq, fractionDist, scaledValue_exact hshort, Nat.dist_self, Nat.cast_zero, zero_mul, abs_eq_zero,
      sub_eq_zero] at hdist
    exact hdist

end Sys2Proof.Machine

/-! SUPPORT. The host program's assembler (30_encoding.md R87 to R89): which accesses a statement expands to, and that
the expansion of a seed literal brings its bytes to the seed buffer (20_memory.md R69), with the statements
StatementsExpandToWellFormedAccesses and SeedLiteralReachesTheSeedBuffer. -/

namespace Sys2Proof.Machine

/-! ## Well-formed accesses -/

/-- A host operation that an expansion may have: well formed and no reset (30_encoding.md R87). -/
def isProgramOp (op : HostOp) : Prop := WellFormed.hostOp Config.blockBase op = true ∧ op ≠ .reset

theorem isProgramOp_poll : isProgramOp .poll := ⟨rfl, nofun⟩

theorem isProgramOp_writeOp (r : Reg) (v : Word) : isProgramOp (writeOp r v) :=
  ⟨wellFormed_of_busTarget (busTarget_reg r), nofun⟩

theorem isProgramOp_readOp (r : Reg) : isProgramOp (readOp r) :=
  ⟨wellFormed_of_busTarget (busTarget_reg r), nofun⟩

theorem isProgramOp_commandOps (i : Instr) : ∀ op ∈ commandOps i, isProgramOp op :=
  List.forall_mem_cons.mpr ⟨isProgramOp_writeOp .cmd _, List.forall_mem_singleton.mpr isProgramOp_poll⟩

theorem seedBufferWrites_zero (j : Nat) (bs : List Byte) : seedBufferWrites j 0 bs = [] := by
  rw [seedBufferWrites]

theorem seedBufferWrites_nil (j fuel : Nat) : seedBufferWrites j fuel [] = [] := by
  cases fuel <;> rfl

/-- Each write of the seed buffer is the write of one of its words (30_encoding.md R89). -/
theorem seedBufferWrites_succ {j fuel : Nat} (hj : j < 64) {bs : List Byte} (hbs : bs ≠ []) :
    seedBufferWrites j (fuel + 1) bs =
      writeOp (.seedBuf ⟨j, hj⟩) (packSeedWord (bs.take 4)) :: seedBufferWrites (j + 1) fuel (bs.drop 4) := by
  obtain ⟨b, bs, rfl⟩ := List.exists_cons_of_ne_nil hbs
  rw [seedBufferWrites, writeOp, Reg.offset, Nat.add_assoc]
  nofun

theorem isProgramOp_seedBufferWrites (fuel j : Nat) (bs : List Byte) (h : j + fuel ≤ 64) :
    ∀ op ∈ seedBufferWrites j fuel bs, isProgramOp op := by
  induction fuel generalizing j bs with
  | zero => simp [seedBufferWrites_zero]
  | succ fuel ih =>
    by_cases hbs : bs = []
    · simp [hbs, seedBufferWrites_nil]
    · rw [seedBufferWrites_succ (by omega) hbs]
      exact List.forall_mem_cons.mpr ⟨isProgramOp_writeOp _ _, ih (j + 1) _ (by omega)⟩

/-- Settles O60: every expansion is made of register accesses and polls. -/
theorem statementsExpandToWellFormedAccesses : Obligations.StatementsExpandToWellFormedAccesses := by
  intro stmt _
  change ∀ op ∈ stmt.expand, isProgramOp op
  cases stmt with
  | wr r v => exact List.forall_mem_singleton.mpr (isProgramOp_writeOp r v)
  | rd r => exact List.forall_mem_singleton.mpr (isProgramOp_readOp r)
  | cmd i => exact List.forall_mem_singleton.mpr (isProgramOp_writeOp .cmd _)
  | cmdw v => exact List.forall_mem_singleton.mpr (isProgramOp_writeOp .cmd v)
  | poll => exact List.forall_mem_singleton.mpr isProgramOp_poll
  | plain i => exact isProgramOp_commandOps i
  | unary i x => exact List.forall_mem_cons.mpr ⟨isProgramOp_writeOp _ x, isProgramOp_commandOps i⟩
  | rngLoad a b c d =>
    refine List.forall_mem_append.mpr ⟨?_, isProgramOp_commandOps .rngLoad⟩
    simp only [List.forall_mem_cons, isProgramOp_writeOp, List.not_mem_nil, false_imp_iff, implies_true, and_self]
  | seed bs =>
    exact List.forall_mem_append.mpr ⟨isProgramOp_seedBufferWrites 64 0 bs le_rfl,
      List.forall_mem_cons.mpr ⟨isProgramOp_writeOp .seedLen _, isProgramOp_commandOps .seed⟩⟩

/-! ## The bytes of a packed word -/

/-- Up to four bytes fit a word, so packing them is exact (30_encoding.md R89). -/
theorem toNat_packSeedWord_cons_and_lt (b : Byte) (bs : List Byte) (h : bs.length ≤ 3) :
    (packSeedWord (b :: bs)).toNat = b.toNat + 2 ^ 8 * (packSeedWord bs).toNat ∧
    (packSeedWord (b :: bs)).toNat < 2 ^ (8 * (bs.length + 1)) := by
  have hrest : (packSeedWord bs).toNat < 2 ^ (8 * bs.length) := by
    cases bs with
    | nil => exact Nat.one_pos
    | cons b' bs => exact (toNat_packSeedWord_cons_and_lt b' bs (by rw [List.length_cons] at h; omega)).2
  have hpow : 2 ^ (8 * (bs.length + 1)) = 2 ^ 8 * 2 ^ (8 * bs.length) := by rw [← Nat.pow_add]; congr 1; omega
  have hfits : 2 ^ (8 * bs.length) ≤ 2 ^ 24 := Nat.pow_le_pow_right (by decide) (by omega)
  have hb := b.isLt
  rw [packSeedWord, toNat_ofNat_of_lt (by omega)]
  exact ⟨rfl, by omega⟩

/-- Byte `t` of a packed word is byte `t` of the list (20_memory.md R69, 30_encoding.md R89). -/
theorem packSeedWord_byte {bs : List Byte} (hlen : bs.length ≤ 4) {t : Nat} (ht : t < bs.length) :
    (packSeedWord bs).toNat / 2 ^ (8 * t) % 2 ^ 8 = (bs.getD t 0).toNat := by
  induction bs generalizing t with
  | nil => simp at ht
  | cons b bs ih =>
    rw [List.length_cons] at hlen ht
    have hb := b.isLt
    rw [(toNat_packSeedWord_cons_and_lt b bs (by omega)).1]
    cases t with
    | zero =>
      rw [List.getD_cons_zero, Nat.mul_zero, Nat.pow_zero]
      omega
    | succ t =>
      have hshift : (b.toNat + 2 ^ 8 * (packSeedWord bs).toNat) / 2 ^ 8 = (packSeedWord bs).toNat := by omega
      rw [List.getD_cons_succ, Nat.mul_succ, Nat.add_comm (8 * t), Nat.pow_add, ← Nat.div_div_eq_div_mul, hshift]
      exact ih (by omega) (by omega)

/-- Writing word `j` of the seed buffer leaves the bytes of the other words. -/
theorem seedByte_set_ne (buf : Vector Word 64) (w : Word) {j i : Nat} (hj : j < 64) (h : i / 4 ≠ j) :
    seedByte (buf.set j w) i = seedByte buf i := by
  rw [seedByte, Vector.getElem?_set_ne hj h.symm, seedByte]

/-- Writing word `j` of the seed buffer sets its four bytes (20_memory.md R69). -/
theorem seedByte_set_packed (buf : Vector Word 64) {bs : List Byte} (hlen : bs.length ≤ 4) {j t : Nat} (hj : j < 64)
    (ht : t < bs.length) : seedByte (buf.set j (packSeedWord bs)) (4 * j + t) = bs.getD t 0 := by
  have hdiv : (4 * j + t) / 4 = j := by omega
  have hmod : (4 * j + t) % 4 = t := by omega
  apply BitVec.eq_of_toNat_eq
  rw [toNat_seedByte _ (by omega), hmod, ← packSeedWord_byte hlen ht]
  simp only [hdiv, Vector.getElem_set_self]

/-! ## Running the writes of an IDLE block -/

/-- A write of an RW register or of CMD on an IDLE block takes effect; `body` is the register's update. -/
theorem step_write_idle {s : State} {r : Reg} {v : Word} {rest : List HostOp} {body : State → State}
    (hidle : s.phase = .idle) (hhost : s.host = writeOp r v :: rest)
    (hbody : ∀ u : State, u.writeReg (Config.latency s.accepted) v r = unlessBusy body u) :
    step s = .next (body { s with host := rest, hold := s.hold - 1 }) := by
  rw [(hostMoves_of_idle hidle hhost).step_writeReg, hbody, unlessBusy_of_idle _ (by simpa using hidle),
    State.hostDone, hhost, List.tail_cons]

/-- From `s` the machine comes to do the operations `rest` next, with the bytes `bs` in the seed buffer from word `j`
on and the words below as they were (20_memory.md R69). -/
def SeedBytesArrive (s : State) (rest : List HostOp) (j : Nat) (bs : List Byte) : Prop :=
  ∃ (k : Nat) (buf : Vector Word 64),
    (∀ m, Sys2Proof.core.run (k + m) s =
      Sys2Proof.core.run m { s with host := rest, hold := 0, seedBuf := buf }) ∧
    (∀ i, i < 4 * j → seedByte buf i = seedByte s.seedBuf i) ∧
    ∀ i, i < bs.length → seedByte buf (4 * j + i) = bs.getD i 0

/-- No bytes arrive in no steps. -/
theorem SeedBytesArrive.nil {s : State} {rest : List HostOp} (j : Nat) (hhold : s.hold = 0) (hhost : s.host = rest) :
    SeedBytesArrive s rest j [] :=
  ⟨0, s.seedBuf, fun m => by rw [Nat.zero_add, ← hhost, ← hhold], fun _ _ => rfl, nofun⟩

/-- One write and the writes after it. -/
theorem SeedBytesArrive.cons {s : State} {rest ops : List HostOp} {j : Nat} {bs : List Byte} (hj : j < 64)
    (hidle : s.phase = .idle)
    (hhost : s.host = writeOp (.seedBuf ⟨j, hj⟩) (packSeedWord (bs.take 4)) :: ops)
    (h : SeedBytesArrive
      { s with host := ops, hold := s.hold - 1, seedBuf := s.seedBuf.set j (packSeedWord (bs.take 4)) }
      rest (j + 1) (bs.drop 4)) :
    SeedBytesArrive s rest j bs := by
  have hstep := step_write_idle (r := .seedBuf ⟨j, hj⟩) hidle hhost fun _ => rfl
  obtain ⟨k, buf, hrun, hbelow, hbytes⟩ := h
  refine ⟨k + 1, buf, fun m => ?run, fun i hi => ?below, fun i hi => ?bytes⟩
  case run =>
    rw [Nat.add_right_comm, run_succ _ hstep]
    exact hrun m
  case below =>
    rw [hbelow i (by omega)]
    exact seedByte_set_ne _ _ hj (by omega)
  case bytes =>
    by_cases hword : i < 4
    · have htake : i < (bs.take 4).length := by rw [List.length_take]; omega
      rw [hbelow _ (by omega), seedByte_set_packed _ (List.length_take_le 4 bs) hj htake,
        List.getD_eq_getElem _ _ htake, List.getElem_take, List.getD_eq_getElem _ _ hi]
    · have hlater := hbytes (i - 4) (by rw [List.length_drop]; omega)
      rw [show 4 * (j + 1) + (i - 4) = 4 * j + i by omega] at hlater
      rw [hlater, List.getD_eq_getElem _ _ (by rw [List.length_drop]; omega), List.getElem_drop,
        List.getD_eq_getElem _ _ hi]
      congr 1
      omega

/-- The writes of the seed buffer from word `j` on bring their bytes there (30_encoding.md R89, 20_memory.md R69). -/
theorem seedBytesArrive_of_seedBufferWrites (fuel j : Nat) (bs : List Byte) (s : State) (rest : List HostOp)
    (hidle : s.phase = .idle) (hhold : s.hold = 0) (hlen : bs.length ≤ 4 * fuel) (hwords : j + fuel ≤ 64)
    (hhost : s.host = seedBufferWrites j fuel bs ++ rest) : SeedBytesArrive s rest j bs := by
  induction fuel generalizing j bs s with
  | zero =>
    obtain rfl := List.length_eq_zero_iff.mp (Nat.le_zero.mp hlen)
    rw [seedBufferWrites_nil, List.nil_append] at hhost
    exact .nil j hhold hhost
  | succ fuel ih =>
    by_cases hbs : bs = []
    · subst hbs
      rw [seedBufferWrites_nil, List.nil_append] at hhost
      exact .nil j hhold hhost
    · have hj : j < 64 := by omega
      rw [seedBufferWrites_succ hj hbs, List.cons_append] at hhost
      refine .cons hj hidle hhost (ih (j + 1) (bs.drop 4) _ hidle ?_ ?_ (by omega) rfl)
      · exact Nat.sub_eq_zero_of_le (by omega)
      · rw [List.length_drop]
        omega

/-- Settles O59: the writes of the seed buffer, then SEED_LEN, then CMD. -/
theorem seedLiteralReachesTheSeedBuffer : Obligations.SeedLiteralReachesTheSeedBuffer := by
  intro s bytes rest hidle hhold hlen hhost
  rw [Stmt.expand, List.append_assoc] at hhost
  obtain ⟨k, buf, hrun, -, hbytes⟩ :=
    seedBytesArrive_of_seedBufferWrites 64 0 bytes s _ hidle hhold (by omega) le_rfl hhost
  have hlenWrite := step_write_idle (r := .seedLen) (v := BitVec.ofNat 32 bytes.length)
    (rest := commandOps .seed ++ rest) (s := { s with host := _, hold := 0, seedBuf := buf }) hidle rfl fun _ => rfl
  have hcmdWrite := step_write_idle (r := .cmd) (v := encode .seed) (rest := .poll :: rest)
    (s := { s with
      host := commandOps .seed ++ rest, hold := 0, seedBuf := buf, seedLen := BitVec.ofNat 32 bytes.length })
    hidle rfl fun _ => rfl
  have hlen32 : (BitVec.ofNat 32 bytes.length).toNat = bytes.length := toNat_ofNat_of_lt (by omega)
  refine ⟨k + 2, _, (hrun 2).trans ((run_succ 1 hlenWrite).trans (run_one hcmdWrite)), rfl,
    decode_encode .seed, hlen32, ?_, rfl⟩
  refine List.ext_getElem (by rw [length_seedBytes]; exact hlen32) fun i _ hi => ?_
  have hbyte := hbytes i hi
  rw [Nat.mul_zero, Nat.zero_add, List.getD_eq_getElem _ _ hi] at hbyte
  simp only [State.seedBytes, List.getElem_map, List.getElem_range]
  exact hbyte

end Sys2Proof.Machine
